-- ==== Sys2Proof/Word.lean ====
section
/-! DEFINITION. The widths CC8 computes with (00_scope.md R9: all values are unsigned). -/

namespace Sys2Proof

/-- A register value, a bus datum or a command word: 32 bits (20_memory.md R71, 30_encoding.md R90). -/
abbrev Word := BitVec 32

/-- A sample, a timestamp or a 16-bit register (00_scope.md R6, 10_state.md R22). -/
abbrev Half := BitVec 16

/-- An octet (40_crc.md R110, 10_state.md R47). -/
abbrev Byte := BitVec 8

/-- A byte offset from CC8_BASE: 12 bits (20_memory.md R70). -/
abbrev Offset := BitVec 12

/-- A channel mask CHM or TXN_MASK: bit c is channel c (30_encoding.md R90, 10_state.md R32). -/
abbrev ChMask := BitVec 2

end Sys2Proof
end

