-- ==== Sys2Proof/Config.lean ====
section
/-! DEFINITION. The parameters of CC8 (00_scope.md R6 and R7, 93_implementation_defined.md section 3) and the two the
spec leaves open (92_eei_decisions.md OPEN-1 and OPEN-2). -/

namespace Sys2Proof.Config

/-- OVERSAMPLES: TICK events per bit period (R6). UNVERIFIED literal of the source, log entry 10. -/
abbrev os : Nat := 10

/-- Bit periods per octet on the line: a start bit and 8 data bits (R6). UNVERIFIED literal, log entry 10. -/
abbrev octetBits : Nat := 9

/-- Bit periods after the start edge before the header is decoded (R6). UNVERIFIED literal, log entry 10. -/
abbrev hdrBits : Nat := 10

/-- Bit periods added in the end-index formula (R6). UNVERIFIED literal, log entry 10. -/
abbrev endSlack : Nat := 15

/-- Largest frame in octets (R6). UNVERIFIED literal, log entry 10. -/
abbrev maxOctets : Nat := 16

/-- Demodulation channels (R6). -/
abbrev nCh : Nat := 2

/-- The most data bits one gap may span after the start bit is dropped (R183). UNVERIFIED literal, log entry 10. -/
abbrev maxRun : Nat := 8

/-- The polynomial x^8+x^7+x^4+x^3+x+1 reflected (R6, R110). UNVERIFIED literal, log entry 10. -/
def crcPoly : Byte := 0xD9

/-- The CRC's initial and reset value (R6, R30). UNVERIFIED literal, log entry 10. -/
def crcInit : Byte := 0xFF

/-- HDR_TICKS (R7). -/
abbrev hdrTicks : Nat := hdrBits * os

/-- CAP_BITS: the data bits of the largest frame (R7). -/
abbrev capBits : Nat := 8 * maxOctets

/-- EDGE_CAP: edge timestamps per channel (R7). -/
abbrev edgeCap : Nat := 160

/-- The 4 KiB page CC8 stands in: the open part of CC8_BASE (OPEN-1). No rule depends on it. Log entry 5. -/
opaque cc8Page : Nat

/-- CC8_BASE, any 4 KiB-aligned platform address (20_memory.md R70, OPEN-1). -/
def cc8Base : Nat := 4096 * cc8Page

/-- TICK_HZ, the TICK rate (OPEN-2). No rule reads it (70_reset_and_hazards.md R244). Log entry 6. -/
opaque tickHz : Nat

end Sys2Proof.Config
end

