-- ==== Sys2Proof/Syntax.lean ====
section
/-! DEFINITION. The commands of CC8: one constructor per row of spec/opcode_table.json (30_encoding.md R93). -/

namespace Sys2Proof

/-- A command (30_encoding.md R93). A channel mask `chm` names the channels {c | chm[c] = 1} (R91). -/
inductive Instr where
  /-- NOP (40_crc.md R113). -/
  | nop
  /-- CRC.INIT (40_crc.md R114). -/
  | crcInit
  /-- CRC.BYTE imm8 (40_crc.md R115). -/
  | crcByte (b : Byte)
  /-- CRC.SET imm8 (40_crc.md R116). -/
  | crcSet (v : Byte)
  /-- CH.RESET chm (41_channel_control.md R130). -/
  | chReset (chm : ChMask)
  /-- CAL.START chm (41_channel_control.md R131). -/
  | calStart (chm : ChMask)
  /-- RX.START chm (41_channel_control.md R132). -/
  | rxStart (chm : ChMask)
  /-- RX.ABORT (41_channel_control.md R134). -/
  | rxAbort
  /-- EDGE.LOAD chm, imm16 (43_bit_sync.md R189). -/
  | edgeLoad (chm : ChMask) (t : Half)
  /-- DECODE chm (43_bit_sync.md R190). -/
  | decode (chm : ChMask)
deriving DecidableEq, Repr

/-- The mnemonic of the opcode map (30_encoding.md R93). -/
def Instr.mnemonic : Instr → String
  | .nop => "NOP"
  | .crcInit => "CRC.INIT"
  | .crcByte _ => "CRC.BYTE"
  | .crcSet _ => "CRC.SET"
  | .chReset _ => "CH.RESET"
  | .calStart _ => "CAL.START"
  | .rxStart _ => "RX.START"
  | .rxAbort => "RX.ABORT"
  | .edgeLoad _ _ => "EDGE.LOAD"
  | .decode _ => "DECODE"

end Sys2Proof
end

