-- ==== Sys2Proof/WellFormed.lean ====
section
/-! DEFINITION. Which terms of Instr are commands: the channel set of a channel command is not empty (30_encoding.md R91).
The widths of the operands are in their types. -/

namespace Sys2Proof

/-- The operand check of 30_encoding.md R91: a channel command names at least one channel. -/
def Instr.wellFormed : Instr → Bool
  | .nop => true
  | .crcInit => true
  | .crcByte _ => true
  | .crcSet _ => true
  | .chReset chm => chm != 0
  | .calStart chm => chm != 0
  | .rxStart chm => chm != 0
  | .rxAbort => true
  | .edgeLoad chm _ => chm != 0
  | .decode chm => chm != 0

end Sys2Proof
end

