-- ==== Sys2Proof/Decode.lean ====
section
/-! DEFINITION. The command word: its fields, the checks of 60_exceptions.md R203, the decoder and the encoder
(30_encoding.md R90 to R96). -/

namespace Sys2Proof

/-- The codes a rejected command or access leaves in LAST_ERR (60_exceptions.md R202). Codes 6 to 15 are never produced
and are not represented, log entry 4. -/
inductive ErrCode where
  /-- Code 0: no error since reset or the last ERR clear. -/
  | none
  /-- Code 1: a command word with OP = 0xA to 0xF. -/
  | illegalOp
  /-- Code 2: a must-be-zero bit of the command word is 1. -/
  | reservedField
  /-- Code 3: a channel command with CHM = 0. -/
  | badMask
  /-- Code 4: the command or write conflicts with an active calibration or transaction. -/
  | busy
  /-- Code 5: a bus access with addr[1:0] ≠ 0. -/
  | misaligned
deriving DecidableEq, Repr

/-- The numbers of 60_exceptions.md R202. -/
def ErrCode.code : ErrCode → BitVec 4
  | .none => 0
  | .illegalOp => 1
  | .reservedField => 2
  | .badMask => 3
  | .busy => 4
  | .misaligned => 5

/-- OP, bits 31:28 (R90). -/
def opField (w : Word) : BitVec 4 := w.extractLsb' 28 4

/-- RSV_A, bits 27:26 (R90). -/
def rsvAField (w : Word) : BitVec 2 := w.extractLsb' 26 2

/-- CHM, bits 25:24 (R90). -/
def chmField (w : Word) : ChMask := w.extractLsb' 24 2

/-- RSV_B, bits 23:16 (R90). -/
def rsvBField (w : Word) : Byte := w.extractLsb' 16 8

/-- IMM, bits 15:0 (R90). -/
def immField (w : Word) : Half := w.extractLsb' 0 16

/-- IMM[7:0], the byte operand of CRC.BYTE and CRC.SET (R92). -/
def immByte (imm : Half) : Byte := imm.extractLsb' 0 8

/-- IMM[15:8], which the byte commands require to be 0 (R92). -/
def immHigh (imm : Half) : Byte := imm.extractLsb' 8 8

/-- The checks of a command word in their order; the first that fails is reported (60_exceptions.md R203). -/
def checkCmd (w : Word) : Option ErrCode :=
  let op := opField w
  let chm := chmField w
  let imm := immField w
  if 0xA#4 ≤ op then some .illegalOp
  else if rsvAField w ≠ 0 ∨ rsvBField w ≠ 0 then some .reservedField
  else if (op = 0x0#4 ∨ op = 0x1#4 ∨ op = 0x7#4) ∧ (chm ≠ 0 ∨ imm ≠ 0) then some .reservedField
  else if (op = 0x2#4 ∨ op = 0x3#4) ∧ (chm ≠ 0 ∨ immHigh imm ≠ 0) then some .reservedField
  else if (op = 0x4#4 ∨ op = 0x5#4 ∨ op = 0x6#4 ∨ op = 0x9#4) ∧ imm ≠ 0 then some .reservedField
  else if (op = 0x4#4 ∨ op = 0x5#4 ∨ op = 0x6#4 ∨ op = 0x8#4 ∨ op = 0x9#4) ∧ chm = 0 then some .badMask
  else none

/-- The row of the opcode map an OP selects, with its operands (R91, R92, R93); none for a reserved OP. -/
def instrOf (op : BitVec 4) (chm : ChMask) (imm : Half) : Option Instr :=
  if op = 0x0#4 then some .nop
  else if op = 0x1#4 then some .crcInit
  else if op = 0x2#4 then some (.crcByte (immByte imm))
  else if op = 0x3#4 then some (.crcSet (immByte imm))
  else if op = 0x4#4 then some (.chReset chm)
  else if op = 0x5#4 then some (.calStart chm)
  else if op = 0x6#4 then some (.rxStart chm)
  else if op = 0x7#4 then some .rxAbort
  else if op = 0x8#4 then some (.edgeLoad chm imm)
  else if op = 0x9#4 then some (.decode chm)
  else none

/-- The decoder: the checks first, then the row (R90 steps 1 to 3). It answers on every word, with the name of the
failing check where it rejects one. -/
def decode (w : Word) : Except ErrCode Instr :=
  match checkCmd w with
  | some e => .error e
  | none =>
    match instrOf (opField w) (chmField w) (immField w) with
    | some i => .ok i
    | none => .error .illegalOp

/-- The word with the given fields and zeros in RSV_A and RSV_B (R90). -/
def packFields (op : BitVec 4) (chm : ChMask) (imm : Half) : Word :=
  op ++ 0#2 ++ chm ++ 0#8 ++ imm

/-- OP of a command (R93). -/
def opcode : Instr → BitVec 4
  | .nop => 0x0
  | .crcInit => 0x1
  | .crcByte _ => 0x2
  | .crcSet _ => 0x3
  | .chReset _ => 0x4
  | .calStart _ => 0x5
  | .rxStart _ => 0x6
  | .rxAbort => 0x7
  | .edgeLoad _ _ => 0x8
  | .decode _ => 0x9

/-- The encoder: the word of a command, from the encoding column of R93. -/
def encode : Instr → Word
  | .nop => packFields (opcode .nop) 0 0
  | .crcInit => packFields (opcode .crcInit) 0 0
  | .crcByte b => packFields (opcode (.crcByte b)) 0 (b.setWidth 16)
  | .crcSet v => packFields (opcode (.crcSet v)) 0 (v.setWidth 16)
  | .chReset chm => packFields (opcode (.chReset chm)) chm 0
  | .calStart chm => packFields (opcode (.calStart chm)) chm 0
  | .rxStart chm => packFields (opcode (.rxStart chm)) chm 0
  | .rxAbort => packFields (opcode .rxAbort) 0 0
  | .edgeLoad chm t => packFields (opcode (.edgeLoad chm t)) chm t
  | .decode chm => packFields (opcode (.decode chm)) chm 0

/-- The instruction read from the low `nbits` bits of `w`, every bit above them 0. A command is one 32-bit word (R96),
so a longer row is none. Log entry 11. -/
def decodeTableWord (nbits w : Nat) : Option Instr :=
  if nbits ≤ 32 then (decode (BitVec.ofNat 32 (w % 2 ^ nbits))).toOption else none

end Sys2Proof
end

