-- ==== Sys2Proof/Machine/State.lean ====
section
/-! DEFINITION. The state of CC8 (10_state.md R22, "nothing else is state"), its reset value (R51) and the ways a step can
end. Beside the spec's record State holds two fields of the model's own: the events still to come and the value last read
(log entries 1 and 2). -/

namespace Sys2Proof.Machine

open Sys2Proof

/-- The reasons a step could fault. There are none: "No condition halts or locks CC8" (60_exceptions.md R200), and
93_implementation_defined.md lists `fault` as not used. Safe: nobody raises one. Log entry 3. -/
inductive Fault where
deriving DecidableEq, Repr

/-- The reasons a step could be refused. -/
inductive Refusal where
  /-- An arm of exec that has no meaning yet. Safe. No arm raises it: every command has its meaning. -/
  | notModelled (mnemonic : String)
deriving DecidableEq, Repr

/-- A channel (00_scope.md R10). -/
inductive Chan where
  | ch0
  | ch1
deriving DecidableEq, Repr

/-- The number of a channel: its bit of CHM and TXN_MASK (30_encoding.md R90). -/
def Chan.index : Chan → Nat
  | .ch0 => 0
  | .ch1 => 1

/-- PHASE (10_state.md R35). The values 5, 6 and 7 are never produced and are not represented, log entry 4. -/
inductive Phase where
  /-- 0: the channel takes no samples. -/
  | idle
  /-- 1: calibration. -/
  | cal
  /-- 2: waiting for the first threshold crossing. -/
  | wait
  /-- 3: recording edges. -/
  | started
  /-- 4: finished, results valid. -/
  | done
deriving DecidableEq, Repr

/-- DEC_ERR (10_state.md R34): 2 and 3 never occur and are not represented, log entry 4. -/
inductive DecErr where
  /-- 0: no failure. -/
  | none
  /-- 1: missing start bit (43_bit_sync.md R183). -/
  | missingStart
deriving DecidableEq, Repr

/-- An atomic event of the total order (20_memory.md R78). -/
inductive Event where
  /-- `BusRead(addr)` (R71). -/
  | busRead (addr : Offset)
  /-- `BusWrite(addr, v)` (R71). -/
  | busWrite (addr : Offset) (v : Word)
  /-- `TICK(s0, s1)` (42_edge_detector.md R150). -/
  | tick (s0 s1 : Half)
  /-- The reset event (70_reset_and_hazards.md R230). -/
  | reset
deriving DecidableEq, Repr

/-- The state of one channel (10_state.md R22). -/
structure Channel where
  /-- PHASE (R35). -/
  phase : Phase
  /-- THRESH (R36). -/
  thresh : Half
  /-- CAL_SUM (R37). -/
  calSum : Word
  /-- CAL_CNT (R38). -/
  calCnt : Half
  /-- SETTLE_LEFT (R38). -/
  settleLeft : Half
  /-- CAL_ERR (R34). -/
  calErr : Bool
  /-- SAMPLE_IDX (R39). -/
  sampleIdx : Half
  /-- END_IDX (R40). -/
  endIdx : Half
  /-- START_IDX (R41). -/
  startIdx : Half
  /-- PREV (R34): true is high. -/
  prev : Bool
  /-- EDGE_CNT (R42). -/
  edgeCnt : BitVec 8
  /-- E[0..159] (R46). -/
  edges : Vector Half 160
  /-- IDLE_CNT (R43). -/
  idleCnt : Half
  /-- EDGE_OVF (R34). -/
  edgeOvf : Bool
  /-- HDR_READ (R34). -/
  hdrRead : Bool
  /-- HDR_OK (R34). -/
  hdrOk : Bool
  /-- HDR (R45). -/
  hdr : Byte
  /-- VALID (R34). -/
  valid : Bool
  /-- TIMEOUT (R34). -/
  timeout : Bool
  /-- ZERO_RUN (R34). -/
  zeroRun : Bool
  /-- ZRUN_CNT (R34). -/
  zrunCnt : BitVec 8
  /-- DEC_ERR (R34). -/
  decErr : DecErr
  /-- NBITS (R44). -/
  nbits : BitVec 8
  /-- OCT_CNT (R34). -/
  octCnt : BitVec 5
  /-- RXB[0..15] (R47). -/
  rxb : Vector Byte 16
deriving DecidableEq, Repr

/-- The state of CC8 and, last, the model's own two fields. -/
structure State where
  /-- CRC (R30). -/
  crc : Byte
  /-- CTRL: bit 0 IE_DONE, bit 1 IE_ERR (R24). -/
  ctrl : BitVec 2
  /-- MARGIN (R25). -/
  margin : Half
  /-- CAL_SETTLE (R26). -/
  calSettle : Half
  /-- REPLY_TIMEOUT (R27). -/
  replyTimeout : Half
  /-- TXN_ACTIVE (R32). -/
  txnActive : Bool
  /-- TXN_MASK (R32). -/
  txnMask : ChMask
  /-- STATUS.DONE (R28). -/
  done : Bool
  /-- STATUS.ERR (R28). -/
  err : Bool
  /-- STATUS.ABORTED (R28). -/
  aborted : Bool
  /-- LAST_ERR (R33). -/
  lastErr : ErrCode
  /-- Channel 0. -/
  ch0 : Channel
  /-- Channel 1. -/
  ch1 : Channel
  /-- The model's own: the value the most recent BusRead returned to the host. DESIGN CHOICE, log entry 2. -/
  rdata : Word
  /-- The model's own: the events still to come, oldest first. DESIGN CHOICE, log entry 1. -/
  inputs : List Event
deriving DecidableEq, Repr

/-- A channel after reset (R51). -/
def Channel.reset : Channel where
  phase := .idle
  thresh := 0xFFFF
  calSum := 0
  calCnt := 0
  settleLeft := 0
  calErr := false
  sampleIdx := 0
  endIdx := 0
  startIdx := 0
  prev := false
  edgeCnt := 0
  edges := Vector.replicate 160 0
  idleCnt := 0
  edgeOvf := false
  hdrRead := false
  hdrOk := false
  hdr := 0
  valid := false
  timeout := false
  zeroRun := false
  zrunCnt := 0
  decErr := .none
  nbits := 0
  octCnt := 0
  rxb := Vector.replicate 16 0

/-- CC8 after reset (R51, 70_reset_and_hazards.md R230). The model's own fields are empty and zero: DESIGN CHOICE, log
entries 1 and 2. -/
def State.reset : State where
  crc := Config.crcInit
  ctrl := 0
  margin := 0
  calSettle := 0
  replyTimeout := 0
  txnActive := false
  txnMask := 0
  done := false
  err := false
  aborted := false
  lastErr := .none
  ch0 := Channel.reset
  ch1 := Channel.reset
  rdata := 0
  inputs := []

/-- The state of channel c: `ch[c]` (00_scope.md R10). -/
def State.ch (s : State) : Chan → Channel
  | .ch0 => s.ch0
  | .ch1 => s.ch1

end Sys2Proof.Machine
end

