-- ==== Sys2Proof/Machine/Operands.lean ====
section
/-! DEFINITION. The channel-set operand (30_encoding.md R91) and the loops over channels of the command rules
("for c in C", "exists c in C"), and the formulas over the parameters of 00_scope.md R7. -/

namespace Sys2Proof.Machine

open Sys2Proof

/-- `CHM[c] = 1`: the mask names channel c (R91). -/
def named (chm : ChMask) (c : Chan) : Bool := chm.getLsbD c.index

/-- "exists c: p c" over the two channels. -/
def anyChan (p : Chan → Bool) : Bool := p .ch0 || p .ch1

/-- "for c in 0, 1: …": each channel's own update. No rule's update of one channel reads the other, so the order of the
loop does not show (42_edge_detector.md R162). -/
def State.mapChans (f : Chan → Channel → Channel) (s : State) : State :=
  { s with ch0 := f .ch0 s.ch0, ch1 := f .ch1 s.ch1 }

/-- "for c in C: …" with C = {c | chm[c] = 1}. -/
def State.mapNamed (chm : ChMask) (f : Channel → Channel) (s : State) : State :=
  s.mapChans fun c k => if named chm c then f k else k

/-- "exists c in C: p (ch[c])". -/
def State.anyNamed (chm : ChMask) (p : Channel → Bool) (s : State) : Bool :=
  anyChan fun c => named chm c && p (s.ch c)

/-- The end-index formula `(octets*9 + 15) * OS` (R157). -/
def endIdxFor (octets : Nat) : Nat := (octets * Config.octetBits + Config.endSlack) * Config.os

/-- END_MAX: the formula at the largest frame (R7). -/
def endMax : Nat := endIdxFor Config.maxOctets

/-- DECL(LEN): the frame length in octets a header declares (R7). -/
def decl (len : BitVec 4) : Nat := if len = 0 then 2 else len.toNat + 1

/-- The constant of register ID (10_state.md R23). -/
def idValue : Word := 0x43524338

/-- The constant of register PARAMS, packed from the parameters as 10_state.md R31 lays it out. -/
def paramsValue : Word :=
  BitVec.ofNat 32 (Config.os + Config.maxOctets * 2 ^ 8 + Config.edgeCap * 2 ^ 16 + Config.nCh * 2 ^ 24)

end Sys2Proof.Machine
end

