-- ==== Sys2Proof/Machine/Flags.lean ====
section
/-! DEFINITION. The flags that are functions of the state (10_state.md R28, 60_exceptions.md R207) and the packed status
words a host reads (R28, R34, R38, R45). -/

namespace Sys2Proof.Machine

open Sys2Proof

/-- The 3-bit code of PHASE (R35). -/
def Phase.code : Phase → BitVec 3
  | .idle => 0
  | .cal => 1
  | .wait => 2
  | .started => 3
  | .done => 4

/-- The 2-bit code of DEC_ERR (R34). -/
def DecErr.code : DecErr → BitVec 2
  | .none => 0
  | .missingStart => 1

/-- CRC_ZERO, the verify8 result (R28, 40_crc.md R117). -/
def State.crcZero (s : State) : Bool := s.crc == 0

/-- CAL_ACTIVE: some channel is calibrating (R28). -/
def State.calActive (s : State) : Bool := anyChan fun c => (s.ch c).phase == .cal

/-- BUSY: TXN_ACTIVE or CAL_ACTIVE (R28). -/
def State.busy (s : State) : Bool := s.txnActive || s.calActive

/-- CTRL.IE_DONE (R24). -/
def State.ieDone (s : State) : Bool := s.ctrl.getLsbD 0

/-- CTRL.IE_ERR (R24). -/
def State.ieErr (s : State) : Bool := s.ctrl.getLsbD 1

/-- The level of the interrupt output (60_exceptions.md R207). -/
def State.irq (s : State) : Bool := (s.ieDone && s.done) || (s.ieErr && s.err)

/-- TXN_ACTIVE = 1 and TXN_MASK[c] = 1: the channel takes part in the transaction (10_state.md R32). -/
def State.inTxn (s : State) (c : Chan) : Bool := s.txnActive && named s.txnMask c

/-- STATUS as read, bit 31 first (R28). -/
def State.statusWord (s : State) : Word :=
  0#12 ++ s.lastErr.code ++ 0#6 ++ s.txnMask ++ BitVec.ofBool s.irq ++ BitVec.ofBool s.busy ++
    BitVec.ofBool s.calActive ++ BitVec.ofBool s.crcZero ++ BitVec.ofBool s.aborted ++ BitVec.ofBool s.err ++
    BitVec.ofBool s.done ++ BitVec.ofBool s.txnActive

/-- CH_STATUS as read, bit 31 first (R34). -/
def Channel.statusWord (k : Channel) : Word :=
  0#3 ++ k.octCnt ++ k.zrunCnt ++ 0#2 ++ k.decErr.code ++ 0#1 ++ BitVec.ofBool k.zeroRun ++
    BitVec.ofBool k.timeout ++ BitVec.ofBool k.calErr ++ BitVec.ofBool k.edgeOvf ++ BitVec.ofBool k.hdrOk ++
    BitVec.ofBool k.hdrRead ++ BitVec.ofBool k.valid ++ BitVec.ofBool k.prev ++ k.phase.code

/-- LEN = HDR[3:0] (R45, 42_edge_detector.md R157). -/
def Channel.len (k : Channel) : BitVec 4 := k.hdr.extractLsb' 0 4

/-- DECL(LEN) if HDR_OK = 1, else 0: the count the header declares (R45, 43_bit_sync.md R188). -/
def Channel.declared (k : Channel) : BitVec 5 := if k.hdrOk then BitVec.ofNat 5 (decl k.len) else 0

/-- The register HDR as read: HDR, LEN and DECL(LEN) (R45). -/
def Channel.hdrWord (k : Channel) : Word := 0#11 ++ k.declared ++ 0#4 ++ k.len ++ k.hdr

/-- The register CAL_CNT as read: SETTLE_LEFT above CAL_CNT (R38). -/
def Channel.calCntWord (k : Channel) : Word := k.settleLeft ++ k.calCnt

end Sys2Proof.Machine
end

