-- ==== Sys2Proof/Machine/Ops.lean ====
section
/-! DEFINITION. The shared operations of the rules: raising a CmdError (60_exceptions.md R201) and acknowledging it (R208,
R211), the clearing operations (10_state.md R52), edge recording (42_edge_detector.md R156) and saturation (00_scope.md
R13). -/

namespace Sys2Proof.Machine

open Sys2Proof

/-- `raise CmdError(code)`: ERR <- 1, LAST_ERR <- code, and nothing else (60_exceptions.md R201). CC8 has no other
exception entry: it saves no state and transfers control nowhere (R200, R210). -/
def State.raise (code : ErrCode) (s : State) : State := { s with err := true, lastErr := code }

/-- The acknowledgement, CC8's only "return" (R211): `BusWrite(0x008, v)` clears what v has a 1 for (10_state.md R28). -/
def State.ackStatus (v : Word) (s : State) : State :=
  { s with
    done := s.done && !v.getLsbD 1
    err := s.err && !v.getLsbD 2
    lastErr := if v.getLsbD 2 then .none else s.lastErr
    aborted := s.aborted && !v.getLsbD 3 }

/-- `sat_16(v + 1)` (00_scope.md R9, R13). -/
def satInc (v : Half) : Half := if v = 0xFFFF then v else v + 1

/-- ClearRx(c) (10_state.md R52). -/
def Channel.clearRx (k : Channel) : Channel :=
  { k with
    sampleIdx := 0
    endIdx := 0
    startIdx := 0
    prev := false
    edgeCnt := 0
    edges := Vector.replicate 160 0
    idleCnt := 0
    edgeOvf := false
    hdrRead := false
    hdrOk := false
    hdr := 0
    valid := false
    timeout := false
    zeroRun := false
    zrunCnt := 0
    decErr := .none
    nbits := 0
    octCnt := 0
    rxb := Vector.replicate 16 0 }

/-- ClearChannel(c): everything of the channel but THRESH (10_state.md R52). -/
def Channel.clearChannel (k : Channel) : Channel :=
  { k with phase := .idle, calSum := 0, calCnt := 0, settleLeft := 0, calErr := false }.clearRx

/-- RecordEdge(c, t): the timestamp appended, or EDGE_OVF when the buffer is full (42_edge_detector.md R156). The same
text is the append of EDGE.LOAD (43_bit_sync.md R189). -/
def Channel.recordEdge (t : Half) (k : Channel) : Channel :=
  if k.edgeCnt.toNat < Config.edgeCap then
    { k with edges := k.edges.setIfInBounds k.edgeCnt.toNat t, edgeCnt := k.edgeCnt + 1 }
  else { k with edgeOvf := true }

/-- The first EDGE_CNT entries of E, in order: the list process_bits walks (43_bit_sync.md R180). -/
def Channel.edgeList (k : Channel) : List Half := k.edges.toList.take k.edgeCnt.toNat

/-- PHASE in {IDLE, DONE}: EDGE.LOAD and DECODE are accepted (43_bit_sync.md R189, R190). -/
def Channel.quiet (k : Channel) : Bool := k.phase == .idle || k.phase == .done

/-- PHASE in {CAL, WAIT, STARTED}: what RX.ABORT cancels (41_channel_control.md R134). -/
def Channel.running (k : Channel) : Bool := k.phase == .cal || k.phase == .wait || k.phase == .started

end Sys2Proof.Machine
end

