-- ==== Sys2Proof/Machine/Bus.lean ====
section
/-! DEFINITION. The register space: the map (20_memory.md R77), reads (R75) and the writes to registers other than CMD
(R76). -/

namespace Sys2Proof.Machine

open Sys2Proof

/-- A word of the register map (20_memory.md R77). -/
inductive Reg where
  | id
  | ctrl
  | status
  | cmd
  | crc
  | margin
  | calSettle
  | replyTimeout
  | params
  | chStatus (c : Chan)
  | thresh (c : Chan)
  | calSum (c : Chan)
  | calCnt (c : Chan)
  | sampleIdx (c : Chan)
  | endIdx (c : Chan)
  | startIdx (c : Chan)
  | edgeCnt (c : Chan)
  | idleCnt (c : Chan)
  | nbits (c : Chan)
  | hdr (c : Chan)
  /-- RXB word k of channel c. -/
  | rxbWord (c : Chan) (k : Nat)
  /-- E[i] of channel c. -/
  | edge (c : Chan) (i : Nat)
  /-- Every offset the map reserves: reads 0, ignores writes. -/
  | reserved
deriving DecidableEq, Repr

/-- The global registers, offsets 0x000 to 0x03C (R77). -/
def globalReg (n : Nat) : Reg :=
  if n = 0x000 then .id
  else if n = 0x004 then .ctrl
  else if n = 0x008 then .status
  else if n = 0x00C then .cmd
  else if n = 0x010 then .crc
  else if n = 0x014 then .margin
  else if n = 0x018 then .calSettle
  else if n = 0x01C then .replyTimeout
  else if n = 0x020 then .params
  else .reserved

/-- The registers of one channel block, by offset within the block (10_state.md section 4, R77). -/
def chanReg (c : Chan) (n : Nat) : Reg :=
  if n = 0x00 then .chStatus c
  else if n = 0x04 then .thresh c
  else if n = 0x08 then .calSum c
  else if n = 0x0C then .calCnt c
  else if n = 0x10 then .sampleIdx c
  else if n = 0x14 then .endIdx c
  else if n = 0x18 then .startIdx c
  else if n = 0x1C then .edgeCnt c
  else if n = 0x20 then .idleCnt c
  else if n = 0x24 then .nbits c
  else if n = 0x28 then .hdr c
  else .reserved

/-- The register at an aligned offset (R77). -/
def regAt (addr : Offset) : Reg :=
  let n := addr.toNat
  if n < 0x040 then globalReg n
  else if n < 0x080 then chanReg .ch0 (n - 0x040)
  else if n < 0x0C0 then chanReg .ch1 (n - 0x080)
  else if n < 0x100 then .reserved
  else if n < 0x110 then .rxbWord .ch0 ((n - 0x100) / 4)
  else if n < 0x120 then .rxbWord .ch1 ((n - 0x110) / 4)
  else if n < 0x400 then .reserved
  else if n < 0x680 then .edge .ch0 ((n - 0x400) / 4)
  else if n < 0x800 then .reserved
  else if n < 0xA80 then .edge .ch1 ((n - 0x800) / 4)
  else .reserved

/-- `addr[1:0] ≠ 0` (R72). -/
def misaligned (addr : Offset) : Bool := addr.extractLsb' 0 2 != 0

/-- RXB[j] (10_state.md R47). -/
def Channel.octet (k : Channel) (j : Nat) : Byte := k.rxb[j]?.getD 0

/-- RXB word k: octet 4k in bits [7:0] (10_state.md R47, 20_memory.md R73). -/
def Channel.rxbWord (k : Channel) (i : Nat) : Word :=
  k.octet (4 * i + 3) ++ k.octet (4 * i + 2) ++ k.octet (4 * i + 1) ++ k.octet (4 * i)

/-- E[i] as the host reads it: 0 at and above EDGE_CNT (10_state.md R46). -/
def Channel.edgeWord (k : Channel) (i : Nat) : Word :=
  if i < k.edgeCnt.toNat then (k.edges[i]?.getD 0).setWidth 32 else 0

/-- What an aligned read of a register returns (10_state.md R23 to R47, 20_memory.md R75). -/
def State.readReg (s : State) : Reg → Word
  | .id => idValue
  | .ctrl => s.ctrl.setWidth 32
  | .status => s.statusWord
  | .cmd => 0
  | .crc => s.crc.setWidth 32
  | .margin => s.margin.setWidth 32
  | .calSettle => s.calSettle.setWidth 32
  | .replyTimeout => s.replyTimeout.setWidth 32
  | .params => paramsValue
  | .chStatus c => (s.ch c).statusWord
  | .thresh c => (s.ch c).thresh.setWidth 32
  | .calSum c => (s.ch c).calSum
  | .calCnt c => (s.ch c).calCntWord
  | .sampleIdx c => (s.ch c).sampleIdx.setWidth 32
  | .endIdx c => (s.ch c).endIdx.setWidth 32
  | .startIdx c => (s.ch c).startIdx.setWidth 32
  | .edgeCnt c => (s.ch c).edgeCnt.setWidth 32
  | .idleCnt c => (s.ch c).idleCnt.setWidth 32
  | .nbits c => (s.ch c).nbits.setWidth 32
  | .hdr c => (s.ch c).hdrWord
  | .rxbWord c k => (s.ch c).rxbWord k
  | .edge c i => (s.ch c).edgeWord i
  | .reserved => 0

/-- `BusRead(addr)`: the value to the host, and MISALIGNED with the value 0 on a misaligned offset (R72, R75). The
returned value is kept in `rdata`, log entry 2. -/
def State.busRead (addr : Offset) (s : State) : State :=
  if misaligned addr then { s.raise .misaligned with rdata := 0 }
  else { s with rdata := s.readReg (regAt addr) }

/-- A configuration write: BUSY while BUSY = 1, else the update (60_exceptions.md R205). -/
def State.configWrite (upd : State → State) (s : State) : State := if s.busy then s.raise .busy else upd s

/-- THRESH(c) <- v (10_state.md R36). -/
def State.setThresh (c : Chan) (v : Half) (s : State) : State :=
  s.mapChans fun c' k => if c' = c then { k with thresh := v } else k

/-- An aligned write to a register other than CMD (R76, 10_state.md R24 to R28, R36, 60_exceptions.md R205). Registers
of 16 bits take v[15:0]. A write to CMD is a command and is run in Events.lean. -/
def State.writeReg (v : Word) (s : State) : Reg → State
  | .ctrl => { s with ctrl := v.setWidth 2 }
  | .status => s.ackStatus v
  | .margin => s.configWrite fun s => { s with margin := v.setWidth 16 }
  | .calSettle => s.configWrite fun s => { s with calSettle := v.setWidth 16 }
  | .replyTimeout => s.configWrite fun s => { s with replyTimeout := v.setWidth 16 }
  | .thresh c => s.configWrite (State.setThresh c (v.setWidth 16))
  | .id => s
  | .cmd => s
  | .crc => s
  | .params => s
  | .chStatus _ => s
  | .calSum _ => s
  | .calCnt _ => s
  | .sampleIdx _ => s
  | .endIdx _ => s
  | .startIdx _ => s
  | .edgeCnt _ => s
  | .idleCnt _ => s
  | .nbits _ => s
  | .hdr _ => s
  | .rxbWord _ _ => s
  | .edge _ _ => s
  | .reserved => s

/-- The platform address of a register offset (20_memory.md R70). -/
def platformAddr (off : Offset) : Nat := Config.cc8Base + off.toNat

/-- The register offset a platform address selects, if it lies in CC8's 4 KiB block (20_memory.md R70). -/
def offsetAt (addr : Nat) : Option Offset :=
  if Config.cc8Base ≤ addr ∧ addr < Config.cc8Base + 4096 then some (BitVec.ofNat 12 (addr - Config.cc8Base)) else none

end Sys2Proof.Machine
end

