-- ==== Sys2Proof/Machine/BitSync.lean ====
section
/-! DEFINITION. Bit-period sync and octet assembly: process_bits (43_bit_sync.md R180 to R186), DecodeRx and Finalize
(R187, R188), and the commands EDGE.LOAD and DECODE (R189, R190). -/

namespace Sys2Proof.Machine

open Sys2Proof

/-- `Bits(g)`: the gap rounded to a count of bit periods, halves up (R181). -/
def gapBits (g : Half) : Nat := (g.toNat + Config.os / 2) / Config.os

/-- What process_bits has so far: B, pos, err and z (R180). `pos` lives only here (10_state.md R48). -/
structure BitAcc where
  /-- B, in line order; true is 1. -/
  bits : List Bool
  /-- Bit periods of the current octet group already accounted for. -/
  pos : Nat
  /-- err. -/
  err : DecErr
  /-- z, the zero-bit gaps met. -/
  zeros : Nat
deriving DecidableEq, Repr

/-- The first line of process_bits (R180). -/
def BitAcc.start : BitAcc := ⟨[], 0, .none, 0⟩

/-- One gap of the loop, for a gap that is looked at (R180): `lvl` is its level (R182). A gap of no bits is only counted
(R184); at an octet boundary its first bit is the start bit and is dropped; more than 8 bits after that is the failure
(R183); otherwise the bits that fit the group and the capacity are appended. -/
def gapStep (cap : Nat) (lvl : Bool) (g : Half) (a : BitAcc) : BitAcc :=
  let r := gapBits g
  if r = 0 then { a with zeros := a.zeros + 1 }
  else
    let r' := if a.pos = 0 then r - 1 else r
    let pos := if a.pos = 0 then 1 else a.pos
    if r' > Config.maxRun then { a with err := .missingStart }
    else
      let k := min r' (min (Config.octetBits - pos) (cap - a.bits.length))
      { a with
        bits := a.bits ++ List.replicate k lvl
        pos := if pos + k = Config.octetBits then 0 else pos + k }

/-- The loop of process_bits over consecutive edges `e, e', …` (R180). `lvl` is the level after the edge e: it starts at 1
and alternates (R182). The gap is taken modulo 2^16 (R181). The loop ends at the capacity and at a failure. -/
def walkEdges (cap : Nat) : Bool → Half → List Half → BitAcc → BitAcc
  | _, _, [], a => a
  | lvl, e, e' :: rest, a =>
    if a.bits.length = cap ∨ a.err = .missingStart then a
    else walkEdges cap (!lvl) e' rest (gapStep cap lvl (e' - e) a)

/-- The answer of process_bits: (B, nb, err, z) (R180). -/
structure BitResult where
  /-- B, padded unless the decode failed. -/
  bits : List Bool
  /-- nb, the bits reconstructed from gaps. -/
  nb : Nat
  /-- err. -/
  err : DecErr
  /-- z. -/
  zeros : Nat
deriving DecidableEq, Repr

/-- B filled to the capacity with the level lf (R185). -/
def padBits (cap : Nat) (lf : Bool) (bits : List Bool) : List Bool :=
  bits ++ List.replicate (cap - bits.length) lf

/-- `process_bits(E, n, cap)` with es the first n entries of E (R180). After n edges the line is high iff n is odd
(R185). -/
def processBits (es : List Half) (cap : Nat) : BitResult :=
  match es with
  | [] => ⟨[], 0, .none, 0⟩
  | e :: rest =>
    let a := walkEdges cap true e rest BitAcc.start
    if a.err = .missingStart then ⟨a.bits, a.bits.length, a.err, a.zeros⟩
    else ⟨padBits cap (es.length % 2 == 1) a.bits, a.bits.length, a.err, a.zeros⟩

/-- The number whose binary digits, least significant first, are the given bits. -/
def bitsValue : List Bool → Nat
  | [] => 0
  | b :: bs => b.toNat + 2 * bitsValue bs

/-- Octet j of B extended with 0 bits: bit b of it is B[8j+b] (R186). -/
def octetAt (bits : List Bool) (j : Nat) : Byte := BitVec.ofNat 8 (bitsValue ((bits.drop (8 * j)).take 8))

/-- DecodeRx(c) (R187). -/
def Channel.decodeRx (k : Channel) : Channel :=
  let r := processBits k.edgeList Config.capBits
  { k with
    rxb := Vector.ofFn fun j : Fin 16 => octetAt r.bits j.val
    nbits := BitVec.ofNat 8 r.nb
    decErr := r.err
    zrunCnt := BitVec.ofNat 8 (min 255 r.zeros)
    zeroRun := decide (r.zeros > 0)
    valid := decide (k.edgeCnt.toNat > 0)
    octCnt := k.declared }

/-- Finalize(c) (R187). -/
def Channel.finalize (k : Channel) : Channel := { k.decodeRx with phase := .done }

/-- EDGE.LOAD chm, imm16 (R189). -/
def execEdgeLoad (chm : ChMask) (t : Half) (s : State) : Host.Outcome State Fault Refusal :=
  if s.anyNamed chm (fun k => !k.quiet) then .next (s.raise .busy)
  else .next (s.mapNamed chm (Channel.recordEdge t))

/-- DECODE chm (R190). -/
def execDecode (chm : ChMask) (s : State) : Host.Outcome State Fault Refusal :=
  if s.anyNamed chm (fun k => !k.quiet) then .next (s.raise .busy)
  else .next (s.mapNamed chm Channel.decodeRx)

end Sys2Proof.Machine
end

