-- ==== Sys2Proof/Machine/ChannelControl.lean ====
section
/-! DEFINITION. The channel control family: CH.RESET, CAL.START, RX.START with ComputeThreshold, RX.ABORT
(41_channel_control.md R130 to R134). -/

namespace Sys2Proof.Machine

open Sys2Proof

/-- ComputeThreshold(c): the floor mean plus MARGIN, saturated; 0xFFFF and CAL_ERR without samples (R133). -/
def Channel.computeThreshold (margin : Half) (k : Channel) : Channel :=
  if k.calCnt = 0 then { k with thresh := 0xFFFF, calErr := true }
  else
    { k with
      thresh := BitVec.ofNat 16 (min 0xFFFF (k.calSum.toNat / k.calCnt.toNat + margin.toNat))
      calErr := false }

/-- CH.RESET chm (R130). -/
def execChReset (chm : ChMask) (s : State) : Host.Outcome State Fault Refusal :=
  if anyChan (fun c => named chm c && s.inTxn c) then .next (s.raise .busy)
  else .next (s.mapNamed chm Channel.clearChannel)

/-- A channel CAL.START names: cleared, then calibrating (R131). -/
def Channel.startCal (settle : Half) (k : Channel) : Channel :=
  { k.clearChannel with phase := .cal, settleLeft := settle }

/-- CAL.START chm (R131). -/
def execCalStart (chm : ChMask) (s : State) : Host.Outcome State Fault Refusal :=
  if s.txnActive then .next (s.raise .busy)
  else .next (s.mapNamed chm (Channel.startCal s.calSettle))

/-- A channel RX.START names: its threshold if it was calibrating, then an open receive window (R132). -/
def Channel.openWindow (margin : Half) (k : Channel) : Channel :=
  let k' := if k.phase = .cal then k.computeThreshold margin else k
  { k'.clearRx with endIdx := BitVec.ofNat 16 endMax, phase := .wait }

/-- A channel RX.START does not name: its calibration is dropped (R132). -/
def Channel.dropCal (k : Channel) : Channel := if k.phase = .cal then k.clearChannel else k

/-- RX.START chm (R132). -/
def execRxStart (chm : ChMask) (s : State) : Host.Outcome State Fault Refusal :=
  if s.txnActive then .next (s.raise .busy)
  else
    let s' := s.mapChans fun c k => if named chm c then k.openWindow s.margin else k.dropCal
    .next { s' with txnActive := true, txnMask := chm, done := false, aborted := false }

/-- RX.ABORT (R134). -/
def execRxAbort (s : State) : Host.Outcome State Fault Refusal :=
  let cancelled := s.txnActive || anyChan fun c => (s.ch c).running
  let s' := s.mapChans fun _ k => if k.running then k.clearChannel else k
  .next { s' with txnActive := false, txnMask := 0, aborted := s.aborted || cancelled }

end Sys2Proof.Machine
end

