-- ==== Sys2Proof/Machine/Crc.lean ====
section
/-! DEFINITION. The CRC family: the generator (40_crc.md R110 to R112) and NOP, CRC.INIT, CRC.BYTE, CRC.SET (R113 to
R116). -/

namespace Sys2Proof.Machine

open Sys2Proof

/-- One shift of the register: right by one, with the reflected polynomial when bit 0 leaves (R110). -/
def crcShift (c : Byte) : Byte := if c.getLsbD 0 then (c >>> 1) ^^^ Config.crcPoly else c >>> 1

/-- n shifts. -/
def crcShifts : Nat → Byte → Byte
  | 0, c => c
  | n + 1, c => crcShifts n (crcShift c)

/-- `crc8_step(c, b)`: the input byte enters by XOR, then 8 shifts (R110). -/
def crc8Step (c b : Byte) : Byte := crcShifts 8 (c ^^^ b)

/-- `crc8`: the fold of the step over the bytes from the initial value (R111). -/
def crc8 (d : List Byte) : Byte := d.foldl crc8Step Config.crcInit

/-- `verify8`: the CRC over data with its trailing CRC byte is zero (R112). -/
def verify8 (d : List Byte) : Bool := crc8 d == 0

/-- NOP: no state changes (R113). -/
def execNop (s : State) : Host.Outcome State Fault Refusal := .next s

/-- CRC.INIT: CRC <- 0xFF (R114). -/
def execCrcInit (s : State) : Host.Outcome State Fault Refusal := .next { s with crc := Config.crcInit }

/-- CRC.BYTE imm8: CRC <- crc8_step(CRC, imm8) (R115). -/
def execCrcByte (b : Byte) (s : State) : Host.Outcome State Fault Refusal := .next { s with crc := crc8Step s.crc b }

/-- CRC.SET imm8: CRC <- imm8 (R116). -/
def execCrcSet (v : Byte) (s : State) : Host.Outcome State Fault Refusal := .next { s with crc := v }

end Sys2Proof.Machine
end

