-- ==== Sys2Proof/Machine/Dispatch.lean ====
section
/-! DEFINITION. The dispatch of a decoded command to its meaning (30_encoding.md R90 step 3). -/

namespace Sys2Proof.Machine

open Sys2Proof

/-- The effect of a command (30_encoding.md R93 names each one's rule). -/
def exec (i : Instr) (s : State) : Host.Outcome State Fault Refusal :=
  match i with
  | .nop => Sys2Proof.Machine.execNop s
  | .crcInit => Sys2Proof.Machine.execCrcInit s
  | .crcByte b => Sys2Proof.Machine.execCrcByte b s
  | .crcSet v => Sys2Proof.Machine.execCrcSet v s
  | .chReset chm => Sys2Proof.Machine.execChReset chm s
  | .calStart chm => Sys2Proof.Machine.execCalStart chm s
  | .rxStart chm => Sys2Proof.Machine.execRxStart chm s
  | .rxAbort => Sys2Proof.Machine.execRxAbort s
  | .edgeLoad chm t => Sys2Proof.Machine.execEdgeLoad chm t s
  | .decode chm => Sys2Proof.Machine.execDecode chm s

end Sys2Proof.Machine
end

