-- ==== Sys2Proof/Machine/EdgeDetector.lean ====
section
/-! DEFINITION. The TICK event: the edge detector and the receive window (42_edge_detector.md R150 to R162). -/

namespace Sys2Proof.Machine

open Sys2Proof

/-- `hi(c, s)`: the sample is strictly above the threshold, unsigned (R153). -/
def Channel.hi (k : Channel) (x : Half) : Bool := decide (k.thresh.toNat < x.toNat)

/-- HeaderDecode(c) (R157). HDR takes the first octet of the one-octet pass. A list with no edge, which no run reaches
here, gives no bits and so HDR = 0: log entry 9. -/
def Channel.headerDecode (k : Channel) : Channel :=
  let r := processBits k.edgeList 8
  if r.err = .none then
    let k' := { k with hdrRead := true, hdr := octetAt r.bits 0, hdrOk := true }
    { k' with endIdx := BitVec.ofNat 16 (endIdxFor (decl k'.len)) }
  else { k with hdrRead := true, hdrOk := false }

/-- EndCheck(c) (R158). -/
def Channel.endCheck (k : Channel) : Channel := if k.endIdx.toNat ≤ k.sampleIdx.toNat then k.finalize else k

/-- ChannelTick in CAL (R152). -/
def Channel.tickCal (x : Half) (k : Channel) : Channel :=
  if k.settleLeft ≠ 0 then { k with settleLeft := k.settleLeft - 1 }
  else if k.calCnt ≠ 0xFFFF then { k with calSum := k.calSum + x.setWidth 32, calCnt := k.calCnt + 1 }
  else k

/-- The crossing half of ChannelTick in WAIT: the start edge, or one more idle tick (R154). -/
def Channel.waitSample (x : Half) (k : Channel) : Channel :=
  if k.hi x then
    { ({ k with startIdx := k.sampleIdx }.recordEdge k.sampleIdx) with prev := true, phase := .started, idleCnt := 0 }
  else { k with idleCnt := satInc k.idleCnt }

/-- The crossing half of ChannelTick in STARTED: an edge, or one more idle tick (R155). -/
def Channel.startedSample (x : Half) (k : Channel) : Channel :=
  if k.hi x ≠ k.prev then { (k.recordEdge k.sampleIdx) with prev := k.hi x, idleCnt := 0 }
  else { k with idleCnt := satInc k.idleCnt }

/-- The header check of ChannelTick in STARTED; the sum is formed without wrap (R155). -/
def Channel.headerCheck (k : Channel) : Channel :=
  if k.hdrRead = false ∧ k.sampleIdx.toNat = k.startIdx.toNat + Config.hdrTicks then k.headerDecode else k

/-- `SAMPLE_IDX <- SAMPLE_IDX + 1`, then EndCheck: the end of a WAIT or STARTED tick (R154, R155). -/
def Channel.advance (k : Channel) : Channel := { k with sampleIdx := k.sampleIdx + 1 }.endCheck

/-- ChannelTick in WAIT (R154). -/
def Channel.tickWait (x : Half) (k : Channel) : Channel := (k.waitSample x).advance

/-- ChannelTick in STARTED (R155). -/
def Channel.tickStarted (x : Half) (k : Channel) : Channel := (k.startedSample x).headerCheck.advance

/-- ChannelTick(c, s), by phase (R150, R151). `inTxn` says whether the channel takes part in the active transaction. -/
def Channel.tick (inTxn : Bool) (x : Half) (k : Channel) : Channel :=
  match k.phase with
  | .idle => k
  | .done => if inTxn then { k with idleCnt := satInc k.idleCnt } else k
  | .cal => k.tickCal x
  | .wait => k.tickWait x
  | .started => k.tickStarted x

/-- The sample of a channel in `TICK(s0, s1)` (R150). -/
def sampleOf (s0 s1 : Half) : Chan → Half
  | .ch0 => s0
  | .ch1 => s1

/-- "for all c in M: p (ch[c])" with M = {c | TXN_MASK[c] = 1} (R160). -/
def State.allMasked (s : State) (p : Channel → Bool) : Bool :=
  (!named s.txnMask .ch0 || p s.ch0) && (!named s.txnMask .ch1 || p s.ch1)

/-- IDLE_CNT(c) > REPLY_TIMEOUT (R159). -/
def Channel.isIdle (replyTimeout : Half) (k : Channel) : Bool := decide (replyTimeout.toNat < k.idleCnt.toNat)

/-- Whether CompletionCheck ends the transaction: all_end or all_idle (R160). -/
def State.completes (s : State) : Bool :=
  s.txnActive &&
    (s.allMasked (fun k => k.phase == .done) ||
      (s.replyTimeout != 0 && s.allMasked (Channel.isIdle s.replyTimeout)))

/-- The completion of one channel of the transaction (R160). -/
def Channel.complete (k : Channel) : Channel :=
  if k.phase = .done then k else { k with timeout := true }.finalize

/-- CompletionCheck (R160). -/
def State.completionCheck (s : State) : State :=
  if s.completes then
    { (s.mapNamed s.txnMask Channel.complete) with txnActive := false, txnMask := 0, done := true }
  else s

/-- Both ChannelTicks of a TICK (R150). -/
def State.tickChannels (s0 s1 : Half) (s : State) : State :=
  s.mapChans fun c k => k.tick (s.inTxn c) (sampleOf s0 s1 c)

/-- `TICK(s0, s1)` (R150). -/
def State.tick (s0 s1 : Half) (s : State) : State := (s.tickChannels s0 s1).completionCheck

end Sys2Proof.Machine
end

