-- ==== Sys2Proof/Machine/Events.lean ====
section
/-! DEFINITION. The events of the total order (20_memory.md R78, 30_encoding.md R95): a write to CMD runs a command, and
BusRead, BusWrite, TICK and reset have their effects. -/

namespace Sys2Proof.Machine

open Sys2Proof

/-- The offset of CMD (10_state.md R29). -/
def cmdOffset : Offset := 0x00C

/-- A word written to CMD: decoded, then rejected with the code of the first failing check, or executed (30_encoding.md
R90, 60_exceptions.md R201, R203). -/
def execWord (w : Word) (s : State) : Host.Outcome State Fault Refusal :=
  match decode w with
  | .error e => .next (s.raise e)
  | .ok i => exec i s

/-- `BusWrite(addr, v)` (20_memory.md R72, R76). -/
def execBusWrite (addr : Offset) (v : Word) (s : State) : Host.Outcome State Fault Refusal :=
  if misaligned addr then .next (s.raise .misaligned)
  else if regAt addr = .cmd then execWord v s
  else .next (s.writeReg v (regAt addr))

/-- The reset event: every field of CC8 at its reset value (70_reset_and_hazards.md R230). The model's own fields are no
state of CC8 and stay: DESIGN CHOICE, log entry 12. -/
def State.resetEvent (s : State) : State := { State.reset with rdata := s.rdata, inputs := s.inputs }

/-- One event (20_memory.md R78). -/
def execEvent (e : Event) (s : State) : Host.Outcome State Fault Refusal :=
  match e with
  | .busRead addr => .next (s.busRead addr)
  | .busWrite addr v => execBusWrite addr v s
  | .tick s0 s1 => .next (s.tick s0 s1)
  | .reset => .next s.resetEvent

/-- The same instruction with every bit above nbits zero, as the write to CMD that runs it (30_encoding.md R90). -/
def cmdWriteOf (nbits w : Nat) : Event := .busWrite cmdOffset (BitVec.ofNat 32 (w % 2 ^ nbits))

end Sys2Proof.Machine
end

