-- ==== Sys2Proof/Machine/Step.lean ====
section
/-! DEFINITION. The step: the next event of the total order takes effect completely (00_scope.md R11, 20_memory.md R78). -/

namespace Sys2Proof.Machine

open Sys2Proof

/-- One step runs the oldest event still to come; with no event to come nothing changes. DESIGN CHOICE, log entry 1. -/
def step (s : State) : Host.Outcome State Fault Refusal :=
  match s.inputs with
  | [] => .next s
  | e :: rest => execEvent e { s with inputs := rest }

/-- The state whose next event writes the given command word to CMD. Log entry 1. -/
def State.withFetchWord (s : State) (nbits w : Nat) : State := { s with inputs := cmdWriteOf nbits w :: s.inputs }

end Sys2Proof.Machine
end

