-- ==== Sys2Proof/Safety.lean ====
section
/-! DEFINITION. What the statements speak of: the delivery of one event, runs of TICKs, and the invariants of the reachable
states (10_state.md R49, R37). -/

namespace Sys2Proof.Machine

open Sys2Proof

/-- The step that runs the event `e` first: what CC8 does when `e` is the next event of the total order (20_memory.md
R78). -/
def deliver (e : Event) (s : State) : Host.Outcome State Fault Refusal := step { s with inputs := e :: s.inputs }

/-- The state after a row of TICKs with the given samples (42_edge_detector.md R150). -/
def runTicks (xs : List (Half × Half)) (s : State) : State := xs.foldl (fun s x => s.tick x.1 x.2) s

/-- The step ends in a next state: no fault and no refusal (60_exceptions.md R200). -/
def Completes (o : Host.Outcome State Fault Refusal) : Prop := ∃ t, o = .next t

/-- The invariants of one channel: 10_state.md R49 (d), (e), (f), (g) and R37. `wait_empty`, `start_before` and `cal_sum`
are DEDUCED, log entry 14. -/
structure Channel.Inv (k : Channel) : Prop where
  /-- R49 (d), first half. -/
  edge_cnt : k.edgeCnt.toNat ≤ 160
  /-- R49 (d), second half. -/
  edges_clear : ∀ i, i < 160 → k.edgeCnt.toNat ≤ i → k.edges[i]? = some 0
  /-- A waiting channel has recorded no edge. -/
  wait_empty : k.phase = .wait → k.edgeCnt = 0
  /-- R49 (e). -/
  started_edge : k.phase = .started → 1 ≤ k.edgeCnt.toNat ∧ k.edges[0]? = some k.startIdx
  /-- The start edge lies before the next sample. -/
  start_before : k.phase = .started → k.startIdx.toNat < k.sampleIdx.toNat
  /-- R49 (f). -/
  window : k.phase = .wait ∨ k.phase = .started → k.sampleIdx.toNat ≤ k.endIdx.toNat ∧ k.endIdx.toNat ≤ 1590
  /-- R49 (g). -/
  results : k.nbits.toNat ≤ 128 ∧ k.octCnt.toNat ≤ 16
  /-- R37: the sum is of at most CAL_CNT samples of 16 bits. -/
  cal_sum : k.calSum.toNat ≤ k.calCnt.toNat * 65535

/-- The invariants of CC8: 10_state.md R49 (a), (b), (c) and each channel's. `members` and `no_cal` are DEDUCED, log entry
14. -/
structure State.Inv (s : State) : Prop where
  /-- The invariants of each channel. -/
  chans : ∀ c, (s.ch c).Inv
  /-- R49 (a). -/
  receiving : ∀ c, (s.ch c).phase = .wait ∨ (s.ch c).phase = .started → s.txnActive = true ∧ named s.txnMask c = true
  /-- R49 (b). -/
  mask_idle : s.txnActive = false → s.txnMask = 0
  /-- R49 (c). -/
  mask_active : s.txnActive = true → s.txnMask ≠ 0
  /-- A channel of the transaction is waiting, started or done. -/
  members : ∀ c, s.txnActive = true → named s.txnMask c = true →
    (s.ch c).phase = .wait ∨ (s.ch c).phase = .started ∨ (s.ch c).phase = .done
  /-- No channel calibrates during a transaction. -/
  no_cal : ∀ c, s.txnActive = true → (s.ch c).phase ≠ .cal

end Sys2Proof.Machine
end

