-- ==== Sys2Proof/Reference.lean ====
section
/-! DEFINITION. Tables and descriptions written out from the spec's text, independent of the machine's definitions, that
the statements compare the machine with. -/

namespace Sys2Proof.Reference

open Sys2Proof Sys2Proof.Machine

/-- A row of the opcode map (30_encoding.md R93). -/
structure OpcodeRow where
  /-- The pattern's fixed ones. -/
  pattern : Word
  /-- The bits the pattern fixes. -/
  mask : Word
  /-- The row has `m` bits: w[25:24] must not both be 0. -/
  chm : Bool
  /-- The command with its operands: `m` is w[25:24], `d` is w[7:0], `t` is w[15:0]. -/
  command : Word → Instr

/-- "a word w is the instruction of a row iff (w & mask) = match and, for rows with m bits, w[25:24] ≠ 0" (R93). -/
def OpcodeRow.reads (r : OpcodeRow) (w : Word) : Prop :=
  w &&& r.mask = r.pattern ∧ (r.chm = true → w.extractLsb' 24 2 ≠ 0)

/-- The opcode map (30_encoding.md R93). -/
def opcodeMap : List OpcodeRow :=
  [ ⟨0x00000000, 0xFFFFFFFF, false, fun _ => .nop⟩,
    ⟨0x10000000, 0xFFFFFFFF, false, fun _ => .crcInit⟩,
    ⟨0x20000000, 0xFFFFFF00, false, fun w => .crcByte (w.extractLsb' 0 8)⟩,
    ⟨0x30000000, 0xFFFFFF00, false, fun w => .crcSet (w.extractLsb' 0 8)⟩,
    ⟨0x40000000, 0xFCFFFFFF, true, fun w => .chReset (w.extractLsb' 24 2)⟩,
    ⟨0x50000000, 0xFCFFFFFF, true, fun w => .calStart (w.extractLsb' 24 2)⟩,
    ⟨0x60000000, 0xFCFFFFFF, true, fun w => .rxStart (w.extractLsb' 24 2)⟩,
    ⟨0x70000000, 0xFFFFFFFF, false, fun _ => .rxAbort⟩,
    ⟨0x80000000, 0xFCFF0000, true, fun w => .edgeLoad (w.extractLsb' 24 2) (w.extractLsb' 0 16)⟩,
    ⟨0x90000000, 0xFCFFFFFF, true, fun w => .decode (w.extractLsb' 24 2)⟩ ]

/-- The check order of 60_exceptions.md R203 over the fields read as numbers; none where every check passes. -/
def firstFailing (w : Word) : Option ErrCode :=
  let op := w.toNat / 2 ^ 28
  let rsvA := w.toNat / 2 ^ 26 % 4
  let chm := w.toNat / 2 ^ 24 % 4
  let rsvB := w.toNat / 2 ^ 16 % 256
  let imm := w.toNat % 2 ^ 16
  if 10 ≤ op then some .illegalOp
  else if rsvA ≠ 0 ∨ rsvB ≠ 0 then some .reservedField
  else if op ∈ [0, 1, 7] ∧ (chm ≠ 0 ∨ imm ≠ 0) then some .reservedField
  else if op ∈ [2, 3] ∧ (chm ≠ 0 ∨ imm / 256 ≠ 0) then some .reservedField
  else if op ∈ [4, 5, 6, 9] ∧ imm ≠ 0 then some .reservedField
  else if op ∈ [4, 5, 6, 8, 9] ∧ chm = 0 then some .badMask
  else none

/-- Rows 0_ to 7_ of the step table T (40_crc.md R118). -/
def crcTableLow : List Byte :=
  [ 0x00, 0xD0, 0x13, 0xC3, 0x26, 0xF6, 0x35, 0xE5, 0x4C, 0x9C, 0x5F, 0x8F, 0x6A, 0xBA, 0x79, 0xA9 ] ++
  [ 0x98, 0x48, 0x8B, 0x5B, 0xBE, 0x6E, 0xAD, 0x7D, 0xD4, 0x04, 0xC7, 0x17, 0xF2, 0x22, 0xE1, 0x31 ] ++
  [ 0x83, 0x53, 0x90, 0x40, 0xA5, 0x75, 0xB6, 0x66, 0xCF, 0x1F, 0xDC, 0x0C, 0xE9, 0x39, 0xFA, 0x2A ] ++
  [ 0x1B, 0xCB, 0x08, 0xD8, 0x3D, 0xED, 0x2E, 0xFE, 0x57, 0x87, 0x44, 0x94, 0x71, 0xA1, 0x62, 0xB2 ] ++
  [ 0xB5, 0x65, 0xA6, 0x76, 0x93, 0x43, 0x80, 0x50, 0xF9, 0x29, 0xEA, 0x3A, 0xDF, 0x0F, 0xCC, 0x1C ] ++
  [ 0x2D, 0xFD, 0x3E, 0xEE, 0x0B, 0xDB, 0x18, 0xC8, 0x61, 0xB1, 0x72, 0xA2, 0x47, 0x97, 0x54, 0x84 ] ++
  [ 0x36, 0xE6, 0x25, 0xF5, 0x10, 0xC0, 0x03, 0xD3, 0x7A, 0xAA, 0x69, 0xB9, 0x5C, 0x8C, 0x4F, 0x9F ] ++
  [ 0xAE, 0x7E, 0xBD, 0x6D, 0x88, 0x58, 0x9B, 0x4B, 0xE2, 0x32, 0xF1, 0x21, 0xC4, 0x14, 0xD7, 0x07 ]

/-- Rows 8_ to F_ of the step table T (40_crc.md R118). -/
def crcTableHigh : List Byte :=
  [ 0xD9, 0x09, 0xCA, 0x1A, 0xFF, 0x2F, 0xEC, 0x3C, 0x95, 0x45, 0x86, 0x56, 0xB3, 0x63, 0xA0, 0x70 ] ++
  [ 0x41, 0x91, 0x52, 0x82, 0x67, 0xB7, 0x74, 0xA4, 0x0D, 0xDD, 0x1E, 0xCE, 0x2B, 0xFB, 0x38, 0xE8 ] ++
  [ 0x5A, 0x8A, 0x49, 0x99, 0x7C, 0xAC, 0x6F, 0xBF, 0x16, 0xC6, 0x05, 0xD5, 0x30, 0xE0, 0x23, 0xF3 ] ++
  [ 0xC2, 0x12, 0xD1, 0x01, 0xE4, 0x34, 0xF7, 0x27, 0x8E, 0x5E, 0x9D, 0x4D, 0xA8, 0x78, 0xBB, 0x6B ] ++
  [ 0x6C, 0xBC, 0x7F, 0xAF, 0x4A, 0x9A, 0x59, 0x89, 0x20, 0xF0, 0x33, 0xE3, 0x06, 0xD6, 0x15, 0xC5 ] ++
  [ 0xF4, 0x24, 0xE7, 0x37, 0xD2, 0x02, 0xC1, 0x11, 0xB8, 0x68, 0xAB, 0x7B, 0x9E, 0x4E, 0x8D, 0x5D ] ++
  [ 0xEF, 0x3F, 0xFC, 0x2C, 0xC9, 0x19, 0xDA, 0x0A, 0xA3, 0x73, 0xB0, 0x60, 0x85, 0x55, 0x96, 0x46 ] ++
  [ 0x77, 0xA7, 0x64, 0xB4, 0x51, 0x81, 0x42, 0x92, 0x3B, 0xEB, 0x28, 0xF8, 0x1D, 0xCD, 0x0E, 0xDE ]

/-- `T[i]` (40_crc.md R118). -/
def crcTable (i : Byte) : Byte := (crcTableLow ++ crcTableHigh).getD i.toNat 0

/-- A command word written to CMD. -/
def cmdWrite (w : Word) : Event := .busWrite 0x00C w

/-- CRC.INIT and one CRC.BYTE per byte, as writes of command words: the pseudo-instruction CRC.BLOCK (30_encoding.md
R98). -/
def crcBlock (d : List Byte) : List Event :=
  cmdWrite 0x10000000 :: d.map fun b => cmdWrite (0x20000000#32 + b.setWidth 32)

/-- What the loop of process_bits carries (43_bit_sync.md R180). -/
structure LoopState where
  bits : List Bool
  pos : Nat
  zeros : Nat

/-- The body of the loop "for i in 0 .. n-2" of process_bits, from index i with `fuel` indices left, with the edge list as
an indexed table. `err` is true after MISSING_START (43_bit_sync.md R180). -/
def decodeLoop (es : List Half) (cap : Nat) : Nat → Nat → LoopState → LoopState × Bool
  | 0, _, a => (a, false)
  | fuel + 1, i, a =>
    if a.bits.length = cap then (a, false)
    else
      let r := ((es.getD (i + 1) 0 - es.getD i 0).toNat + 5) / 10
      if r = 0 then decodeLoop es cap fuel (i + 1) { a with zeros := a.zeros + 1 }
      else
        let r1 := if a.pos = 0 then r - 1 else r
        let pos1 := if a.pos = 0 then 1 else a.pos
        if 8 < r1 then (a, true)
        else
          let k := min r1 (min (9 - pos1) (cap - a.bits.length))
          let pos2 := pos1 + k
          decodeLoop es cap fuel (i + 1)
            ⟨a.bits ++ List.replicate k (decide (i % 2 = 0)), if pos2 = 9 then 0 else pos2, a.zeros⟩

/-- `process_bits(E, n, cap)` as the spec's text writes it, with n the length of the list: (B, nb, err, z)
(43_bit_sync.md R180). -/
def decodeBits (es : List Half) (cap : Nat) : List Bool × Nat × Bool × Nat :=
  let n := es.length
  let (a, failed) := decodeLoop es cap (n - 1) 0 ⟨[], 0, 0⟩
  if failed then (a.bits, a.bits.length, true, a.zeros)
  else if 1 ≤ n then
    (a.bits ++ List.replicate (cap - a.bits.length) (decide ((n - 1) % 2 = 0)), a.bits.length, false, a.zeros)
  else (a.bits, a.bits.length, false, a.zeros)

/-- The levels of the bit periods of a frame, `prev` the level before it: per octet a start bit that complements the level
before, then the eight data bits, bit 0 first (43_bit_sync.md R191). -/
def lineLevels : Bool → List Byte → List Bool
  | _, [] => []
  | prev, o :: os => (!prev) :: ((List.range 8).map o.getLsbD ++ lineLevels (o.getLsbD 7) os)

/-- The timestamps at which a row of bit periods of 10 ticks, the first at t, changes level (43_bit_sync.md R191). -/
def changeTimes : Nat → Bool → List Bool → List Nat
  | _, _, [] => []
  | t, prev, l :: ls => if l = prev then changeTimes (t + 10) l ls else t :: changeTimes (t + 10) l ls

/-- The edge timestamps of the reference waveform: the line is low before the frame, whose start edge is at t0, and at the
level `idle` after it (43_bit_sync.md R191). -/
def frameEdges (t0 : Nat) (octets : List Byte) (idle : Bool) : List Nat :=
  changeTimes t0 false (lineLevels false octets ++ [idle])

/-- The level of the reference waveform at timestamp n (43_bit_sync.md R191). -/
def frameLevelAt (t0 : Nat) (octets : List Byte) (idle : Bool) (n : Nat) : Bool :=
  if n < t0 then false else (lineLevels false octets).getD ((n - t0) / 10) idle

/-- The frame length in octets a header byte declares: LEN = HDR[3:0], 2 for LEN = 0, else LEN + 1 (42_edge_detector.md
R157). -/
def declaredOctets (hdr : Byte) : Nat := if hdr.toNat % 16 = 0 then 2 else hdr.toNat % 16 + 1

/-- The END_IDX row of the table by LEN (42_edge_detector.md R157). -/
def endIdxTable : List Nat :=
  [330, 330, 420, 510, 600, 690, 780, 870, 960, 1050, 1140, 1230, 1320, 1410, 1500, 1590]

/-- The offsets the register map reserves (20_memory.md R77). -/
def reservedOffset (n : Nat) : Prop :=
  (0x024 ≤ n ∧ n ≤ 0x03C) ∨ (0x06C ≤ n ∧ n ≤ 0x07C) ∨ (0x0AC ≤ n ∧ n ≤ 0x0BC) ∨ (0x0C0 ≤ n ∧ n ≤ 0x0FC) ∨
    (0x120 ≤ n ∧ n ≤ 0x3FC) ∨ (0x680 ≤ n ∧ n ≤ 0x7FC) ∨ (0xA80 ≤ n ∧ n ≤ 0xFFC)

/-- The offset of a channel's register: `CH(c) + d` with `CH(c) = 0x040 + 0x040*c` (10_state.md section 4). -/
def chOffset (c : Chan) (d : Nat) : Offset := BitVec.ofNat 12 (0x040 + 0x040 * c.index + d)

/-- The LAST_ERR numbers (60_exceptions.md R202). -/
def errNumber : ErrCode → Nat
  | .none => 0
  | .illegalOp => 1
  | .reservedField => 2
  | .badMask => 3
  | .busy => 4
  | .misaligned => 5

/-- The PHASE numbers (10_state.md R35). -/
def phaseNumber : Phase → Nat
  | .idle => 0
  | .cal => 1
  | .wait => 2
  | .started => 3
  | .done => 4

/-- The phases of the channels RX.ABORT cancels (41_channel_control.md R134). -/
def inProgress (p : Phase) : Prop := p = .cal ∨ p = .wait ∨ p = .started

/-- "PHASE(c) in {IDLE, DONE}" for every named channel: EDGE.LOAD and DECODE are accepted (43_bit_sync.md R189, R190). -/
def namedAtRest (chm : ChMask) (s : State) : Prop :=
  ∀ c, named chm c = true → (s.ch c).phase = .idle ∨ (s.ch c).phase = .done

/-- A named channel takes part in the active transaction: CH.RESET is refused (41_channel_control.md R130). -/
def namedInTransaction (chm : ChMask) (s : State) : Prop :=
  s.txnActive = true ∧ ∃ c, named chm c = true ∧ named s.txnMask c = true

/-- BUSY (10_state.md R28). -/
def busyNow (s : State) : Prop := s.txnActive = true ∨ ∃ c, (s.ch c).phase = .cal

/-- The interrupt level (60_exceptions.md R207). -/
def irqNow (s : State) : Prop :=
  (s.ctrl.getLsbD 0 = true ∧ s.done = true) ∨ (s.ctrl.getLsbD 1 = true ∧ s.err = true)

/-- The event writes a command word that decodes to i. -/
def commands (e : Event) (i : Instr) : Prop := ∃ w, e = cmdWrite w ∧ Sys2Proof.decode w = .ok i

/-- ClearChannel's result: everything at its reset value but THRESH (10_state.md R52, R51). -/
def cleared (k : Channel) : Channel := { Channel.reset with thresh := k.thresh }

/-- RecordEdge(c, t) with room in the buffer takes k to k': t becomes entry EDGE_CNT, which advances, and nothing else
changes (42_edge_detector.md R156). -/
def edgeRecorded (t : Half) (k k' : Channel) : Prop :=
  k' = { k with edges := k'.edges, edgeCnt := k'.edgeCnt } ∧ k'.edgeCnt.toNat = k.edgeCnt.toNat + 1 ∧
  k'.edgeList = k.edgeList ++ [t] ∧ ∀ i : Nat, k'.edges[i]? = if i = k.edgeCnt.toNat then some t else k.edges[i]?

/-- A TICK without a crossing takes k to k' before the sample index advances: IDLE_CNT counts, saturating
(42_edge_detector.md R154, R155, R159). -/
def idleCounted (k k' : Channel) : Prop :=
  k' = { k with idleCnt := k'.idleCnt } ∧ k'.idleCnt.toNat = min 65535 (k.idleCnt.toNat + 1)

/-- DecodeRx(c) takes k to k': the result registers are those of the recorded edges, and nothing else changes
(43_bit_sync.md R186, R187, R188). -/
def resultsDecoded (k k' : Channel) : Prop :=
  let (bits, nb, failed, zeros) := decodeBits k.edgeList 128
  k' = { k with
    rxb := k'.rxb, nbits := k'.nbits, decErr := k'.decErr, zrunCnt := k'.zrunCnt, zeroRun := k'.zeroRun,
    valid := k'.valid, octCnt := k'.octCnt } ∧
  (∀ j b, j < 16 → b < 8 → (k'.octet j).getLsbD b = bits.getD (8 * j + b) false) ∧
  k'.nbits.toNat = nb ∧ (k'.decErr = .missingStart ↔ failed = true) ∧ k'.zrunCnt.toNat = min 255 zeros ∧
  (k'.zeroRun = true ↔ 0 < zeros) ∧ (k'.valid = true ↔ k.edgeCnt ≠ 0) ∧
  k'.octCnt.toNat = if k.hdrOk then declaredOctets k.hdr else 0

/-- Finalize(c) takes k to k': DecodeRx, then PHASE is DONE (43_bit_sync.md R187). TIMEOUT is left. -/
def finalized (k k' : Channel) : Prop := resultsDecoded { k with phase := .done } k'

/-- HeaderDecode(c) takes k to k': the pass of one octet over the edges recorded, and the window its LEN declares
(42_edge_detector.md R157). -/
def headerDecoded (k k' : Channel) : Prop :=
  let (bits, _, failed, _) := decodeBits k.edgeList 8
  (failed = true → k' = { k with hdrRead := true, hdrOk := false }) ∧
  (failed = false →
    k' = { k with hdrRead := true, hdrOk := true, hdr := k'.hdr, endIdx := k'.endIdx } ∧
    (∀ b, b < 8 → k'.hdr.getLsbD b = bits.getD b false) ∧
    endIdxTable[k'.hdr.toNat % 16]? = some k'.endIdx.toNat)

/-- The end of a WAIT or STARTED tick takes k to k': the index advances, and a channel that has reached END_IDX is
finalized (42_edge_detector.md R154, R155, R158). -/
def indexAdvanced (k k' : Channel) : Prop :=
  let n := { k with sampleIdx := k.sampleIdx + 1 }
  (n.sampleIdx < n.endIdx → k' = n) ∧ (n.endIdx ≤ n.sampleIdx → finalized n k')

/-- A STARTED tick takes k to k' once the sample's crossing, or its absence, stands in k: the header check at START_IDX +
100, formed without wrap, and then the end of the tick (42_edge_detector.md R155). -/
def startedTickEnded (k k' : Channel) : Prop :=
  ∃ h : Channel,
    (k.hdrRead = false ∧ k.sampleIdx.toNat = k.startIdx.toNat + 100 → headerDecoded k h) ∧
    (¬ (k.hdrRead = false ∧ k.sampleIdx.toNat = k.startIdx.toNat + 100) → h = k) ∧ indexAdvanced h k'

end Sys2Proof.Reference
end

