-- ==== Sys2Proof/Certificates/Slice0/Obligations.lean ====
section
/-! DEFINITION. The statements for the provers. Each names the rule of spec/ it formalises. -/

open Sys2Proof Sys2Proof.Machine Sys2Proof.Reference

/-! ### Encoding -/

/-- Every well-formed command is read back from its encoding, for every operand (30_encoding.md R90 to R93). -/
def Obligations.DecodeEncodeRoundTrip : Prop :=
  ∀ i : Instr, i.wellFormed = true → Sys2Proof.decode (encode i) = .ok i

/-- Every word the decoder accepts is the encoding of the well-formed command it reads: no bit is dropped. -/
def Obligations.AcceptedWordIsItsEncoding : Prop :=
  ∀ (w : Word) (i : Instr), Sys2Proof.decode w = .ok i → i.wellFormed = true ∧ encode i = w

/-- The decoder is the opcode map of R93, read by mask and match; any other word is rejected. -/
def Obligations.DecoderFollowsOpcodeMap : Prop :=
  (∀ r ∈ opcodeMap, ∀ w, r.reads w → Sys2Proof.decode w = .ok (r.command w)) ∧
  (∀ w, (∀ r ∈ opcodeMap, ¬ r.reads w) → ∃ e, Sys2Proof.decode w = .error e ∧ firstFailing w = some e)

/-- A command word that fails a check of R203 only raises the code of the first failing check; one that fails none is
executed. In every state, so also while a transaction is active. -/
def Obligations.CommandWordCheckedInOrder : Prop :=
  ∀ (w : Word) (s : State),
    (∀ e, firstFailing w = some e → deliver (cmdWrite w) s = .next { s with err := true, lastErr := e }) ∧
    (firstFailing w = none → ∃ i, Sys2Proof.decode w = .ok i ∧ deliver (cmdWrite w) s = exec i s)

/-- The encoding examples of R99. -/
def Obligations.EncodingExamplesDecode : Prop :=
  Sys2Proof.decode 0x20000012 = .ok (.crcByte 0x12) ∧ Sys2Proof.decode 0x43000000 = .ok (.chReset 3) ∧
  Sys2Proof.decode 0x53000000 = .ok (.calStart 3) ∧ Sys2Proof.decode 0x61000000 = .ok (.rxStart 1) ∧
  Sys2Proof.decode 0x820000E6 = .ok (.edgeLoad 2 230) ∧ Sys2Proof.decode 0x91000000 = .ok (.decode 1) ∧
  Sys2Proof.decode 0xA0000000 = .error .illegalOp ∧ Sys2Proof.decode 0x20000112 = .error .reservedField ∧
  Sys2Proof.decode 0x40000000 = .error .badMask

/-! ### The step -/

/-- The step at a write of a command word to CMD runs the decoded command, on the state without that event. -/
def Obligations.StepRunsDecodedCommand : Prop :=
  ∀ (s : State) (w : Word) (i : Instr) (rest : List Event),
    s.inputs = .busWrite 0x00C w :: rest → Sys2Proof.decode w = .ok i → i.wellFormed = true →
      step s = exec i { s with inputs := rest }

/-- No state halts or locks CC8: every step answers a next state, and so does every command in every state (R200). -/
def Obligations.NoStepStops : Prop :=
  (∀ s : State, Completes (step s)) ∧ ∀ (i : Instr) (s : State), Completes (exec i s)

/-- One step takes exactly the oldest event off the row of events and leaves the others. The row of events is the model's
own (log entry 1). -/
def Obligations.StepConsumesOneEvent : Prop :=
  ∀ s t : State, step s = .next t → t.inputs = s.inputs.tail

/-- A command either is rejected with BUSY and changes nothing but ERR and LAST_ERR, or leaves ERR and LAST_ERR as they
were (R201, R50). -/
def Obligations.CommandRejectsPrecisely : Prop :=
  ∀ (i : Instr) (s t : State), exec i s = .next t →
    t = { s with err := true, lastErr := .busy } ∨ (t.err = s.err ∧ t.lastErr = s.lastErr)

/-- The BUSY rejections of CH.RESET, CAL.START, RX.START, EDGE.LOAD and DECODE: nothing changes but ERR and LAST_ERR. -/
def Obligations.BusyRejectionsLeaveState : Prop :=
  ∀ (chm : ChMask) (t : Half) (s : State),
    (namedInTransaction chm s → exec (.chReset chm) s = .next { s with err := true, lastErr := .busy }) ∧
    (s.txnActive = true → exec (.calStart chm) s = .next { s with err := true, lastErr := .busy }) ∧
    (s.txnActive = true → exec (.rxStart chm) s = .next { s with err := true, lastErr := .busy }) ∧
    (¬ namedAtRest chm s → exec (.edgeLoad chm t) s = .next { s with err := true, lastErr := .busy }) ∧
    (¬ namedAtRest chm s → exec (.decode chm) s = .next { s with err := true, lastErr := .busy })

/-! ### CRC family -/

/-- NOP, CRC.INIT and CRC.SET complete in every state and change nothing but, for the last two, CRC. -/
def Obligations.NopCrcInitCrcSetResults : Prop :=
  ∀ (s : State) (v : Byte),
    exec .nop s = .next s ∧ exec .crcInit s = .next { s with crc := 0xFF } ∧ exec (.crcSet v) s = .next { s with crc := v }

/-- CRC.BYTE completes in every state; CRC becomes T[CRC XOR b], with T the table of R118, and nothing else changes. -/
def Obligations.CrcByteFollowsStepTable : Prop :=
  ∀ (s : State) (b : Byte), exec (.crcByte b) s = .next { s with crc := crcTable (s.crc ^^^ b) }

/-- A message followed by its own CRC verifies (R112). -/
def Obligations.AppendedCrcVerifies : Prop :=
  ∀ d : List Byte, crc8 (d ++ [crc8 d]) = 0 ∧ verify8 (d ++ [crc8 d]) = true

/-- Changing one octet of a message that verifies, by any number of bits, makes it fail: V7's single flipped bit in the
data or the CRC byte among them. -/
def Obligations.ChangedOctetIsDetected : Prop :=
  ∀ (xs ys : List Byte) (b b' : Byte), b ≠ b' → verify8 (xs ++ b :: ys) = true → verify8 (xs ++ b' :: ys) = false

/-- CRC_ZERO reads 1 iff CRC = 0, and after CRC.INIT and one CRC.BYTE per byte of d it is verify8(d); CRC is crc8(d) and
nothing else changed (R117). -/
def Obligations.CrcBlockComputesVerify : Prop :=
  (∀ s : State, s.statusWord.getLsbD 4 = true ↔ s.crc = 0) ∧
  ∀ (d : List Byte) (s : State), ∃ t : State,
    Host.Core.run core (d.length + 1) ({ s with inputs := crcBlock d ++ s.inputs } : State) = .next t ∧
    t = { s with crc := crc8 d } ∧ t.statusWord.getLsbD 4 = verify8 d

/-- The CRC unit shares no state with the channels: no TICK and no channel command reads or writes CRC, and no CRC
command changes anything but CRC, ERR among the rest; a word with an OP of the CRC family is rejected with no other code
than RESERVED_FIELD (R119). -/
def Obligations.CrcUnitIsIndependent : Prop :=
  (∀ (s : State) (s0 s1 : Half) (x : Byte), ({ s with crc := x } : State).tick s0 s1 = { s.tick s0 s1 with crc := x }) ∧
  (∀ (i : Instr) (s t : State) (x : Byte),
    i ∉ [Instr.nop, .crcInit] → (∀ b, i ≠ .crcByte b) → (∀ v, i ≠ .crcSet v) → exec i s = .next t →
      t.crc = s.crc ∧ exec i { s with crc := x } = .next { t with crc := x }) ∧
  ∀ (s : State) (b : Byte), ∃ t0 t1 t2 : State,
    exec .crcInit s = .next t0 ∧ exec (.crcByte b) s = .next t1 ∧ exec (.crcSet b) s = .next t2 ∧
    t0 = { s with crc := t0.crc } ∧ t1 = { s with crc := t1.crc } ∧ t2 = { s with crc := t2.crc } ∧
    ∀ (w : Word) (e : ErrCode), w.toNat / 2 ^ 28 < 4 → Sys2Proof.decode w = .error e → e = .reservedField

/-! ### Channel control family -/

/-- CH.RESET completes unless a named channel takes part in the transaction: each named channel is as after reset but for
THRESH, the other channel and every global register are unchanged (R130, R52). -/
def Obligations.ChResetClearsNamedChannels : Prop :=
  ∀ (chm : ChMask) (s : State), ¬ namedInTransaction chm s → ∃ t : State,
    exec (.chReset chm) s = .next t ∧ t = { s with ch0 := t.ch0, ch1 := t.ch1 } ∧
    ∀ c, t.ch c = if named chm c then cleared (s.ch c) else s.ch c

/-- CAL.START completes unless a transaction is active: each named channel is cleared but for THRESH, calibrating, with
SETTLE_LEFT = CAL_SETTLE; the other channel and every global register are unchanged (R131). -/
def Obligations.CalStartBeginsCalibration : Prop :=
  ∀ (chm : ChMask) (s : State), s.txnActive = false → ∃ t : State,
    exec (.calStart chm) s = .next t ∧ t = { s with ch0 := t.ch0, ch1 := t.ch1 } ∧
    ∀ c, t.ch c =
      if named chm c then { cleared (s.ch c) with phase := .cal, settleLeft := s.calSettle } else s.ch c

/-- RX.START completes unless a transaction is active. A named channel waits with an empty window of 1590 samples; if it
was calibrating, THRESH and CAL_ERR are those of R133; a calibration of an unnamed channel is dropped; the transaction
state is set and DONE and ABORTED are cleared; nothing else changes (R132, R133). -/
def Obligations.RxStartOpensReceiveWindow : Prop :=
  ∀ (chm : ChMask) (s : State), s.txnActive = false → ∃ t : State,
    exec (.rxStart chm) s = .next t ∧
    t = { s with
      ch0 := t.ch0, ch1 := t.ch1, txnActive := true, txnMask := chm, done := false, aborted := false } ∧
    (∀ c, named chm c = true →
      t.ch c =
        { Channel.reset with
          phase := .wait, endIdx := 1590, thresh := (t.ch c).thresh, calErr := (t.ch c).calErr,
          calSum := (s.ch c).calSum, calCnt := (s.ch c).calCnt, settleLeft := (s.ch c).settleLeft } ∧
      ((s.ch c).phase ≠ .cal → (t.ch c).thresh = (s.ch c).thresh ∧ (t.ch c).calErr = (s.ch c).calErr) ∧
      ((s.ch c).phase = .cal → (s.ch c).calCnt = 0 → (t.ch c).thresh = 0xFFFF ∧ (t.ch c).calErr = true) ∧
      ((s.ch c).phase = .cal → (s.ch c).calCnt ≠ 0 →
        (t.ch c).thresh.toNat = min 65535 ((s.ch c).calSum.toNat / (s.ch c).calCnt.toNat + s.margin.toNat) ∧
        (t.ch c).calErr = false)) ∧
    ∀ c, named chm c = false → t.ch c = if (s.ch c).phase = .cal then cleared (s.ch c) else s.ch c

/-- RX.ABORT completes in every state: every channel in CAL, WAIT or STARTED is cleared but for THRESH, any other keeps
its state, the transaction ends, ABORTED is set iff anything was cancelled or it was set, and nothing else changes: DONE is
not set (R134). -/
def Obligations.RxAbortCancelsEverything : Prop :=
  ∀ s : State, ∃ t : State,
    exec .rxAbort s = .next t ∧
    t = { s with ch0 := t.ch0, ch1 := t.ch1, txnActive := false, txnMask := 0, aborted := t.aborted } ∧
    (t.aborted = true ↔ s.aborted = true ∨ s.txnActive = true ∨ ∃ c, inProgress (s.ch c).phase) ∧
    ∀ c, (inProgress (s.ch c).phase → t.ch c = cleared (s.ch c)) ∧ (¬ inProgress (s.ch c).phase → t.ch c = s.ch c)

/-! ### Diagnostic commands and the decoder -/

/-- EDGE.LOAD completes when every named channel is IDLE or DONE. Each named channel gets the timestamp as entry EDGE_CNT
and EDGE_CNT + 1, its other entries and fields unchanged; a full one gets EDGE_OVF only. Everything else is unchanged
(R189). -/
def Obligations.EdgeLoadAppendsTimestamp : Prop :=
  ∀ (chm : ChMask) (x : Half) (s : State), namedAtRest chm s → ∃ t : State,
    exec (.edgeLoad chm x) s = .next t ∧ t = { s with ch0 := t.ch0, ch1 := t.ch1 } ∧
    ∀ c,
      (named chm c = false → t.ch c = s.ch c) ∧
      (named chm c = true → 160 ≤ (s.ch c).edgeCnt.toNat → t.ch c = { s.ch c with edgeOvf := true }) ∧
      (named chm c = true → (s.ch c).edgeCnt.toNat < 160 → edgeRecorded x (s.ch c) (t.ch c))

/-- DECODE completes when every named channel is IDLE or DONE: RXB, NBITS, DEC_ERR, ZRUN_CNT, ZERO_RUN, VALID and OCT_CNT
of each named channel are those of R187 over its recorded edges; PHASE and everything else is unchanged (R187, R188,
R190). -/
def Obligations.DecodeFillsResultRegisters : Prop :=
  ∀ (chm : ChMask) (s : State), namedAtRest chm s → ∃ t : State,
    exec (.decode chm) s = .next t ∧ t = { s with ch0 := t.ch0, ch1 := t.ch1 } ∧
    ∀ c,
      (named chm c = false → t.ch c = s.ch c) ∧
      (named chm c = true → resultsDecoded (s.ch c) (t.ch c))

/-- process_bits is the indexed loop of R180, for every edge list and every capacity, and its bit list fits the capacity. -/
def Obligations.ProcessBitsIsTheIndexedLoop : Prop :=
  ∀ (es : List Half) (cap : Nat),
    let r := processBits es cap
    let (bits, nb, failed, zeros) := decodeBits es cap
    r.bits = bits ∧ r.nb = nb ∧ (r.err = .missingStart ↔ failed = true) ∧ r.zeros = zeros ∧
    r.bits.length ≤ cap

/-- Bits(g) rounds half up: the table of R181, and the tolerance of R192 for every n; the gap of two timestamps is taken
modulo 2^16. -/
def Obligations.GapRoundsHalfUp : Prop :=
  (∀ g : Half, gapBits g = 0 ↔ g.toNat ≤ 4) ∧
  (∀ (g : Half) (n : Nat), 1 ≤ n → (gapBits g = n ↔ 10 * n - 5 ≤ g.toNat ∧ g.toNat ≤ 10 * n + 4)) ∧
  (∀ g : Half, 10 ≤ gapBits g ↔ 95 ≤ g.toNat) ∧
  ∀ e e' : Half, gapBits (e' - e) = (((e'.toNat + 65536 - e.toNat) % 65536) + 5) / 10

/-- What process_bits returns: at most cap bits; nb of them from gaps; without a failure and with an edge, exactly cap bits,
all after the first nb at the level after the last edge; after a failure, no padding; with no edge, nothing (R180, R183,
R185). -/
def Obligations.ProcessBitsPadsToCapacity : Prop :=
  ∀ (es : List Half) (cap : Nat),
    let r := processBits es cap
    r.nb ≤ r.bits.length ∧ r.bits.length ≤ cap ∧
    (r.err = .missingStart → r.bits.length = r.nb) ∧
    (es = [] → r = ⟨[], 0, .none, 0⟩) ∧
    (es ≠ [] → r.err = .none →
      r.bits.length = cap ∧ ∀ i, r.nb ≤ i → i < cap → r.bits[i]? = some (decide (es.length % 2 = 1)))

/-- One high gap of n bit periods after the start edge: a glitch is counted, 1 to 9 periods give n - 1 ones, 10 or more are
a missing start bit (R183, R184). -/
def Obligations.FirstGapDecodes : Prop :=
  ∀ e e' : Half,
    let n := gapBits (e' - e)
    let r := processBits [e, e'] 128
    (n = 0 → r = ⟨List.replicate 128 false, 0, .none, 1⟩) ∧
    (1 ≤ n → n ≤ 9 → r = ⟨List.replicate (n - 1) true ++ List.replicate (129 - n) false, n - 1, .none, 0⟩) ∧
    (10 ≤ n → r = ⟨[], 0, .missingStart, 0⟩)

/-- The reference waveform decodes: a channel whose edges are those of a frame of 1 to 16 octets, with either idle level,
has the frame's octets in RXB after DecodeRx, with no failure and no zero-bit gap (R191). -/
def Obligations.ReferenceWaveformDecodes : Prop :=
  ∀ (octets : List Byte) (t0 : Nat) (idle : Bool) (k : Channel),
    1 ≤ octets.length → octets.length ≤ 16 →
    k.edgeList = (frameEdges t0 octets idle).map (BitVec.ofNat 16) →
      (∀ (j : Nat) (o : Byte), octets[j]? = some o → k.decodeRx.rxb[j]? = some o) ∧
      k.decodeRx.decErr = .none ∧ k.decodeRx.zeroRun = false

/-- Each edge displaced on its own by at most 2 ticks: every frame still decodes (R192). -/
def Obligations.DisplacedWaveformDecodes : Prop :=
  ∀ (octets : List Byte) (t0 : Nat) (idle : Bool) (times : List Nat) (k : Channel),
    1 ≤ octets.length → octets.length ≤ 16 →
    List.Forall₂ (fun a b => a ≤ b + 2 ∧ b ≤ a + 2) times (frameEdges t0 octets idle) →
    k.edgeList = times.map (BitVec.ofNat 16) →
      ∀ (j : Nat) (o : Byte), octets[j]? = some o → k.decodeRx.rxb[j]? = some o

/-! ### Edge detector and receive window -/

/-- A sample is high iff it is strictly above THRESH, unsigned: a sample equal to THRESH is low, and THRESH = 0xFFFF makes
every sample low (R153). -/
def Obligations.PolarityIsStrict : Prop :=
  ∀ (k : Channel) (x : Half),
    (k.hi x = true ↔ k.thresh < x) ∧ (x = k.thresh → k.hi x = false) ∧ (k.thresh = 0xFFFF → k.hi x = false)

/-- A calibrating channel: a settle tick is skipped; then the sample is added and counted, the sum without overflow; at
CAL_CNT = 0xFFFF accumulation has stopped (R152, R37). -/
def Obligations.CalibrationTickAccumulates : Prop :=
  ∀ (k : Channel) (b : Bool) (x : Half), k.phase = .cal →
    (k.settleLeft ≠ 0 →
      k.tick b x = { k with settleLeft := (k.tick b x).settleLeft } ∧
      (k.tick b x).settleLeft.toNat + 1 = k.settleLeft.toNat) ∧
    (k.settleLeft = 0 → k.calCnt = 0xFFFF → k.tick b x = k) ∧
    (k.settleLeft = 0 → k.calCnt ≠ 0xFFFF →
      k.tick b x = { k with calSum := k.calSum + x.setWidth 32, calCnt := k.calCnt + 1 } ∧
      (k.tick b x).calCnt.toNat = k.calCnt.toNat + 1 ∧
      (k.calSum.toNat ≤ k.calCnt.toNat * 65535 → (k.tick b x).calSum.toNat = k.calSum.toNat + x.toNat))

/-- A waiting channel: the first sample above THRESH is the start edge at the present index, recorded as E[0], and the
channel is STARTED; any other sample only counts IDLE_CNT. Then the index advances, and a channel that has reached END_IDX is
finalized with the results of the edges recorded, TIMEOUT left. Nothing else changes (R154, R156, R158, R187). -/
def Obligations.WaitTickFindsStartEdge : Prop :=
  ∀ (k : Channel) (b : Bool) (x : Half), k.phase = .wait → k.edgeCnt = 0 →
    (k.thresh < x → ∃ k1,
      edgeRecorded k.sampleIdx { k with startIdx := k.sampleIdx, prev := true, phase := .started, idleCnt := 0 } k1 ∧
      k1.edgeList = [k.sampleIdx] ∧ indexAdvanced k1 (k.tick b x)) ∧
    (¬ k.thresh < x → ∃ k1, idleCounted k k1 ∧ indexAdvanced k1 (k.tick b x))

/-- A started channel with room in E: a change of polarity appends the present index to E, restarts IDLE_CNT and changes
PREV, no change only counts IDLE_CNT; the header is decoded exactly in the TICK at START_IDX + 100, over the edges with this
TICK's crossing; the index advances, and a channel that has reached END_IDX is finalized with the results of those edges,
TIMEOUT left. Nothing else changes, the result registers of a channel that goes on among it (R155 to R158, R187, R238). -/
def Obligations.StartedTickRecordsCrossings : Prop :=
  ∀ (k : Channel) (b : Bool) (x : Half), k.phase = .started → k.edgeCnt.toNat < 160 →
    (k.prev ≠ decide (k.thresh < x) → ∃ k1,
      edgeRecorded k.sampleIdx { k with prev := decide (k.thresh < x), idleCnt := 0 } k1 ∧ startedTickEnded k1 (k.tick b x)) ∧
    (k.prev = decide (k.thresh < x) → ∃ k1, idleCounted k k1 ∧ startedTickEnded k1 (k.tick b x))

/-- A started channel with 160 edges recorded: a crossing sets EDGE_OVF, leaves E and EDGE_CNT, and the polarity bookkeeping
still runs; no crossing only counts IDLE_CNT. The header check, the advance of the index and the check of END_IDX follow as
in any STARTED tick, and nothing else changes (R155, R156, R158). -/
def Obligations.FullBufferDropsEdge : Prop :=
  ∀ (k : Channel) (b : Bool) (x : Half), k.phase = .started → k.edgeCnt = 160 →
    (k.prev ≠ decide (k.thresh < x) →
      startedTickEnded { k with edgeOvf := true, prev := decide (k.thresh < x), idleCnt := 0 } (k.tick b x)) ∧
    (k.prev = decide (k.thresh < x) → ∃ k1, idleCounted k k1 ∧ startedTickEnded k1 (k.tick b x))

/-- EndCheck finalizes a channel iff SAMPLE_IDX has reached END_IDX; Finalize makes PHASE DONE and RXB, NBITS, DEC_ERR,
ZRUN_CNT, ZERO_RUN, VALID and OCT_CNT those of the edges recorded, and changes nothing else: E, EDGE_CNT, EDGE_OVF, HDR,
HDR_OK, HDR_READ and TIMEOUT are left (R158, R187). -/
def Obligations.EndCheckFinalizesAtEndIdx : Prop :=
  ∀ k : Channel,
    finalized k k.finalize ∧ (k.endIdx ≤ k.sampleIdx → finalized k k.endCheck) ∧
    (k.sampleIdx < k.endIdx → k.endCheck = k)

/-- A silent channel: with no sample above THRESH in the 1590 TICKs of a window, and idle completion off, it ends DONE at
index 1590 with VALID = 0, RXB all 0 and no decode result; TIMEOUT, E and everything else are as they were (R154, R158,
R187). -/
def Obligations.SilentChannelEndsInvalid : Prop :=
  ∀ (s : State) (c : Chan) (xs : List (Half × Half)),
    s.inTxn c = true → s.replyTimeout = 0 → (s.ch c).phase = .wait → (s.ch c).sampleIdx = 0 → (s.ch c).edgeCnt = 0 →
    (s.ch c).endIdx = 1590 → (s.ch c).hdrOk = false → xs.length = 1590 →
    (∀ x ∈ xs, ¬ (s.ch c).thresh < sampleOf x.1 x.2 c) →
      let k := (runTicks xs s).ch c
      k = { s.ch c with
        phase := .done, sampleIdx := 1590, idleCnt := k.idleCnt, rxb := Vector.replicate 16 0, nbits := 0, decErr := .none,
        zrunCnt := 0, zeroRun := false, valid := false, octCnt := 0 } ∧
      k.idleCnt.toNat = min 65535 ((s.ch c).idleCnt.toNat + 1590)

/-- HeaderDecode: the octet of the one-octet pass goes to HDR, bit 0 first, and END_IDX is the table's entry for its LEN; a
failed pass only sets HDR_READ and clears HDR_OK (R157). -/
def Obligations.HeaderDecodeSetsWindow : Prop := ∀ k : Channel, headerDecoded k k.headerDecode

/-- CompletionCheck: the transaction ends iff every channel of the mask is DONE, or REPLY_TIMEOUT is not 0 and every one is
idle beyond it; then each unfinished one is finalized with TIMEOUT, TXN_ACTIVE and TXN_MASK are 0 and DONE is 1; the
results of a finalized channel are those of its recorded edges; nothing else changes. Every TICK ends with it (R160, R187). -/
def Obligations.CompletionEndsTransaction : Prop :=
  (∀ (s : State) (s0 s1 : Half), deliver (.tick s0 s1) s = .next (s.tickChannels s0 s1).completionCheck) ∧
  ∀ s : State,
    let ends := s.txnActive = true ∧
      ((∀ c, named s.txnMask c = true → (s.ch c).phase = .done) ∨
        (s.replyTimeout ≠ 0 ∧ ∀ c, named s.txnMask c = true → s.replyTimeout < (s.ch c).idleCnt))
    (¬ ends → s.completionCheck = s) ∧
    (ends →
      s.completionCheck =
        { s with
          ch0 := s.completionCheck.ch0, ch1 := s.completionCheck.ch1, txnActive := false, txnMask := 0, done := true } ∧
      ∀ c,
        (named s.txnMask c = true ∧ (s.ch c).phase ≠ .done →
          finalized { s.ch c with timeout := true } (s.completionCheck.ch c)) ∧
        (¬ (named s.txnMask c = true ∧ (s.ch c).phase ≠ .done) → s.completionCheck.ch c = s.ch c))

/-- A TICK is never rejected and raises nothing: it completes in every state, leaves CRC, the configuration, ERR, LAST_ERR
and ABORTED, and no THRESH and no CAL_ERR changes. A channel outside the transaction has its own ChannelTick only, whatever
the other channel holds; one of the transaction has its ChannelTick before the completion check (R150, R162). -/
def Obligations.TickFrame : Prop :=
  ∀ (s : State) (s0 s1 : Half), ∃ t : State,
    deliver (.tick s0 s1) s = .next t ∧
    t = { s with ch0 := t.ch0, ch1 := t.ch1, txnActive := t.txnActive, txnMask := t.txnMask, done := t.done } ∧
    (∀ c, (t.ch c).thresh = (s.ch c).thresh ∧ (t.ch c).calErr = (s.ch c).calErr) ∧
    (∀ c, s.inTxn c = false → t.ch c = (s.ch c).tick false (sampleOf s0 s1 c)) ∧
    t = (s.tickChannels s0 s1).completionCheck ∧
    ∀ c, (s.tickChannels s0 s1).ch c = (s.ch c).tick (s.inTxn c) (sampleOf s0 s1 c)

/-- ChannelTick in IDLE or DONE: an idle channel, and a done one outside the active transaction, ignore the sample; a done
channel of the active transaction only counts IDLE_CNT, saturating (R151). -/
def Obligations.QuietChannelIgnoresSamples : Prop :=
  ∀ (s : State) (c : Chan) (s0 s1 : Half),
    let k := s.ch c
    let k' := (s.tickChannels s0 s1).ch c
    (k.phase = .idle → k' = k) ∧
    (k.phase = .done → ¬ (s.txnActive = true ∧ named s.txnMask c = true) → k' = k) ∧
    (k.phase = .done → s.txnActive = true → named s.txnMask c = true →
      k' = { k with idleCnt := k'.idleCnt } ∧ k'.idleCnt.toNat = min 65535 (k.idleCnt.toNat + 1))

/-- A channel with THRESH = 0xFFFF that has not started cannot start, whatever the samples of a TICK: no edge is ever
recorded from it (R36, R153). -/
def Obligations.UncalibratedChannelNeverStarts : Prop :=
  ∀ (xs : List (Half × Half)) (s : State) (c : Chan), (s.ch c).thresh = 0xFFFF → (s.ch c).phase ≠ .started →
    ((runTicks xs s).ch c).phase ≠ .started ∧ ((runTicks xs s).ch c).edges = (s.ch c).edges ∧
    ((runTicks xs s).ch c).edgeCnt = (s.ch c).edgeCnt

/-- A transaction ends at the latest 1590 TICKs after any state with the invariants, RX.START's result among them (R160). -/
def Obligations.TransactionEndsWithin1590Ticks : Prop :=
  ∀ (s : State) (xs : List (Half × Half)), s.Inv → s.txnActive = true → 1590 ≤ xs.length →
    (runTicks xs s).txnActive = false

/-- Reply latency: a frame as long as its header declares, with its start edge at most 159 TICKs after RX.START and any idle
level, is captured whole, through the samples of the TICKs of its window, when idle completion is off (R236). -/
def Obligations.PromptFrameIsCaptured : Prop :=
  ∀ (s : State) (c : Chan) (hdr : Byte) (body : List Byte) (idle : Bool) (t0 : Nat) (xs : List (Half × Half)),
    s.inTxn c = true → s.replyTimeout = 0 → (s.ch c).phase = .wait → (s.ch c).sampleIdx = 0 → (s.ch c).edgeCnt = 0 →
    (s.ch c).endIdx = 1590 → (s.ch c).hdrRead = false → (s.ch c).hdrOk = false →
    body.length + 1 = declaredOctets hdr → t0 ≤ 159 →
    xs.length = (declaredOctets hdr * 9 + 15) * 10 →
    (∀ n x, xs[n]? = some x → ((s.ch c).thresh < sampleOf x.1 x.2 c ↔ frameLevelAt t0 (hdr :: body) idle n = true)) →
      let k := (runTicks xs s).ch c
      k.phase = .done ∧ k.hdr = hdr ∧ k.hdrOk = true ∧ k.octCnt.toNat = declaredOctets hdr ∧ k.valid = true ∧
      k.decErr = .none ∧ ∀ (j : Nat) (o : Byte), (hdr :: body)[j]? = some o → k.rxb[j]? = some o

/-! ### Bus -/

/-- An aligned BusRead completes and changes no state of CC8, only what the host holds (`rdata`, log entry 2); CMD and every
reserved offset read 0 (R75). -/
def Obligations.AlignedReadHasNoSideEffect : Prop :=
  ∀ (addr : Offset) (s : State), addr.toNat % 4 = 0 → ∃ t : State,
    deliver (.busRead addr) s = .next t ∧ t = { s with rdata := t.rdata } ∧
    (addr = 0x00C → t.rdata = 0) ∧ (reservedOffset addr.toNat → t.rdata = 0)

/-- A misaligned access changes no register but ERR and LAST_ERR = 5; the read returns 0 (R72). -/
def Obligations.MisalignedAccessIsRejected : Prop :=
  ∀ (addr : Offset) (v : Word) (s : State), addr.toNat % 4 ≠ 0 →
    deliver (.busRead addr) s = .next { s with err := true, lastErr := .misaligned, rdata := 0 } ∧
    deliver (.busWrite addr v) s = .next { s with err := true, lastErr := .misaligned } ∧
    ErrCode.misaligned.code = 5

/-- What the global registers read (R77). -/
def Obligations.GlobalRegisterReads : Prop :=
  ∀ s : State,
    deliver (.busRead 0x000) s = .next { s with rdata := 0x43524338 } ∧
    deliver (.busRead 0x004) s = .next { s with rdata := s.ctrl.setWidth 32 } ∧
    deliver (.busRead 0x010) s = .next { s with rdata := s.crc.setWidth 32 } ∧
    deliver (.busRead 0x014) s = .next { s with rdata := s.margin.setWidth 32 } ∧
    deliver (.busRead 0x018) s = .next { s with rdata := s.calSettle.setWidth 32 } ∧
    deliver (.busRead 0x01C) s = .next { s with rdata := s.replyTimeout.setWidth 32 } ∧
    deliver (.busRead 0x020) s = .next { s with rdata := 0x02A0100A }

/-- What the registers of a channel read, CH_STATUS apart; CAL_CNT packs SETTLE_LEFT above CAL_CNT, HDR packs DECL(LEN), LEN
and HDR (R36 to R45, R77). -/
def Obligations.ChannelRegisterReads : Prop :=
  ∀ (s : State) (c : Chan), ∃ cnt hdr : Word,
    deliver (.busRead (chOffset c 0x04)) s = .next { s with rdata := (s.ch c).thresh.setWidth 32 } ∧
    deliver (.busRead (chOffset c 0x08)) s = .next { s with rdata := (s.ch c).calSum } ∧
    deliver (.busRead (chOffset c 0x0C)) s = .next { s with rdata := cnt } ∧
    deliver (.busRead (chOffset c 0x10)) s = .next { s with rdata := (s.ch c).sampleIdx.setWidth 32 } ∧
    deliver (.busRead (chOffset c 0x14)) s = .next { s with rdata := (s.ch c).endIdx.setWidth 32 } ∧
    deliver (.busRead (chOffset c 0x18)) s = .next { s with rdata := (s.ch c).startIdx.setWidth 32 } ∧
    deliver (.busRead (chOffset c 0x1C)) s = .next { s with rdata := (s.ch c).edgeCnt.setWidth 32 } ∧
    deliver (.busRead (chOffset c 0x20)) s = .next { s with rdata := (s.ch c).idleCnt.setWidth 32 } ∧
    deliver (.busRead (chOffset c 0x24)) s = .next { s with rdata := (s.ch c).nbits.setWidth 32 } ∧
    deliver (.busRead (chOffset c 0x28)) s = .next { s with rdata := hdr } ∧
    cnt.extractLsb' 0 16 = (s.ch c).calCnt ∧ cnt.extractLsb' 16 16 = (s.ch c).settleLeft ∧
    hdr.extractLsb' 0 8 = (s.ch c).hdr ∧ hdr.extractLsb' 8 4 = (s.ch c).hdr.extractLsb' 0 4 ∧
    hdr.extractLsb' 12 4 = 0 ∧ hdr.extractLsb' 21 11 = 0 ∧
    (hdr.extractLsb' 16 5).toNat = if (s.ch c).hdrOk then declaredOctets (s.ch c).hdr else 0

/-- The buffers as read: octet 4k+j of RXB in bits [8j+7:8j] of word k at 0x100 + 0x10*c + 4*k, and E[i], or 0 from
EDGE_CNT on, at 0x400 + 0x400*c + 4*i (R46, R47, R73). -/
def Obligations.BufferWordReads : Prop :=
  ∀ (s : State) (c : Chan),
    (∀ k, k < 4 → ∃ v : Word,
      deliver (.busRead (BitVec.ofNat 12 (0x100 + 0x10 * c.index + 4 * k))) s = .next { s with rdata := v } ∧
      ∀ j, j < 4 → (s.ch c).rxb[4 * k + j]? = some (v.extractLsb' (8 * j) 8)) ∧
    ∀ i, i < 160 → ∃ v : Word,
      deliver (.busRead (BitVec.ofNat 12 (0x400 + 0x400 * c.index + 4 * i))) s = .next { s with rdata := v } ∧
      (i < (s.ch c).edgeCnt.toNat → (s.ch c).edges[i]? = some (v.setWidth 16) ∧ v.toNat < 65536) ∧
      ((s.ch c).edgeCnt.toNat ≤ i → v = 0)

/-- Every bit of STATUS as read (R28). -/
def Obligations.StatusRegisterFields : Prop :=
  ∀ s : State, ∃ v : Word,
    deliver (.busRead 0x008) s = .next { s with rdata := v } ∧
    v.getLsbD 0 = s.txnActive ∧ v.getLsbD 1 = s.done ∧ v.getLsbD 2 = s.err ∧ v.getLsbD 3 = s.aborted ∧
    (v.getLsbD 4 = true ↔ s.crc = 0) ∧ (v.getLsbD 5 = true ↔ ∃ c, (s.ch c).phase = .cal) ∧
    (v.getLsbD 6 = true ↔ busyNow s) ∧ (v.getLsbD 7 = true ↔ irqNow s) ∧ v.extractLsb' 8 2 = s.txnMask ∧
    v.extractLsb' 10 6 = 0 ∧ (v.extractLsb' 16 4).toNat = errNumber s.lastErr ∧ v.extractLsb' 20 12 = 0

/-- Every bit of CH_STATUS as read (R34, R35). -/
def Obligations.ChStatusRegisterFields : Prop :=
  ∀ (s : State) (c : Chan), ∃ v : Word,
    let k := s.ch c
    deliver (.busRead (chOffset c 0x00)) s = .next { s with rdata := v } ∧
    (v.extractLsb' 0 3).toNat = phaseNumber k.phase ∧ v.getLsbD 3 = k.prev ∧ v.getLsbD 4 = k.valid ∧
    v.getLsbD 5 = k.hdrRead ∧ v.getLsbD 6 = k.hdrOk ∧ v.getLsbD 7 = k.edgeOvf ∧ v.getLsbD 8 = k.calErr ∧
    v.getLsbD 9 = k.timeout ∧ v.getLsbD 10 = k.zeroRun ∧ v.getLsbD 11 = false ∧
    (v.extractLsb' 12 2).toNat = (if k.decErr = .missingStart then 1 else 0) ∧ v.extractLsb' 14 2 = 0 ∧
    v.extractLsb' 16 8 = k.zrunCnt ∧ v.extractLsb' 24 5 = k.octCnt ∧ v.extractLsb' 29 3 = 0

/-- Writes to CTRL take effect in every state; a write to STATUS clears exactly what it has a 1 for, ERR together with
LAST_ERR (R24, R28). -/
def Obligations.ControlAndStatusWrites : Prop :=
  ∀ (s : State) (v : Word),
    deliver (.busWrite 0x004 v) s = .next { s with ctrl := v.extractLsb' 0 2 } ∧
    deliver (.busWrite 0x008 v) s = .next
      { s with
        done := if v.getLsbD 1 then false else s.done
        err := if v.getLsbD 2 then false else s.err
        lastErr := if v.getLsbD 2 then .none else s.lastErr
        aborted := if v.getLsbD 3 then false else s.aborted }

/-- A write to MARGIN, CAL_SETTLE, REPLY_TIMEOUT or THRESH takes bits [15:0] while BUSY = 0, and while BUSY = 1 is rejected
with BUSY and leaves the register; so a calibration or transaction runs with the parameters it started with: while BUSY, no
event but reset changes MARGIN, CAL_SETTLE or REPLY_TIMEOUT, and none but reset and RX.START a THRESH (R205). -/
def Obligations.ConfigurationWritesNeedIdle : Prop :=
  ∀ (s : State) (v : Word),
    (busyNow s → ∀ addr : Offset, addr ∈ [0x014, 0x018, 0x01C, 0x044, 0x084] →
      deliver (.busWrite addr v) s = .next { s with err := true, lastErr := .busy }) ∧
    (¬ busyNow s →
      deliver (.busWrite 0x014 v) s = .next { s with margin := v.extractLsb' 0 16 } ∧
      deliver (.busWrite 0x018 v) s = .next { s with calSettle := v.extractLsb' 0 16 } ∧
      deliver (.busWrite 0x01C v) s = .next { s with replyTimeout := v.extractLsb' 0 16 } ∧
      deliver (.busWrite 0x044 v) s = .next { s with ch0 := { s.ch0 with thresh := v.extractLsb' 0 16 } } ∧
      deliver (.busWrite 0x084 v) s = .next { s with ch1 := { s.ch1 with thresh := v.extractLsb' 0 16 } }) ∧
    ∀ (e : Event) (t : State), busyNow s → e ≠ .reset → deliver e s = .next t →
      t.margin = s.margin ∧ t.calSettle = s.calSettle ∧ t.replyTimeout = s.replyTimeout ∧
      ∀ c, (t.ch c).thresh = (s.ch c).thresh ∨ ∃ chm, commands e (.rxStart chm)

/-- An aligned write to a read-only, reserved or unmapped offset has no effect and raises no error (R76). -/
def Obligations.ReadOnlyWritesAreIgnored : Prop :=
  ∀ (addr : Offset) (v : Word) (s : State), addr.toNat % 4 = 0 →
    addr ∉ ([0x004, 0x008, 0x00C, 0x014, 0x018, 0x01C, 0x044, 0x084] : List Offset) →
      deliver (.busWrite addr v) s = .next s

/-! ### Interrupt and whole-machine rules -/

/-- The interrupt level, and what acknowledges it: W1C of DONE and of ERR drop it unless the other source is enabled and
pending, an accepted RX.START clears DONE, clearing the enables drops it and keeps the flags, a read of STATUS clears
nothing (R207, R208). -/
def Obligations.InterruptLevelAndAcknowledge : Prop :=
  (∀ s : State, (s.irq = true ↔ irqNow s) ∧ s.statusWord.getLsbD 7 = s.irq) ∧
  (∀ s : State, deliver (.busWrite 0x008 0x2) s = .next { s with done := false } ∧
    (({ s with done := false } : State).irq = true ↔ s.ctrl.getLsbD 1 = true ∧ s.err = true)) ∧
  (∀ s : State, deliver (.busWrite 0x008 0x4) s = .next { s with err := false, lastErr := .none } ∧
    (({ s with err := false, lastErr := .none } : State).irq = true ↔ s.ctrl.getLsbD 0 = true ∧ s.done = true)) ∧
  (∀ (s t : State) (chm : ChMask), s.txnActive = false → exec (.rxStart chm) s = .next t → t.done = false) ∧
  (∀ s : State, deliver (.busWrite 0x004 0) s = .next { s with ctrl := 0 } ∧ ({ s with ctrl := 0 } : State).irq = false) ∧
  (∀ s t : State, deliver (.busRead 0x008) s = .next t → t.done = s.done ∧ t.err = s.err ∧ t.lastErr = s.lastErr ∧
    t.aborted = s.aborted) ∧
  ∀ s t : State, exec .rxAbort s = .next t → t.irq = s.irq

/-- A CmdError during a transaction does not touch it: the TICKs after it proceed as if the command had never been written
(R209). -/
def Obligations.ErrorLeavesTicksAlone : Prop :=
  ∀ (xs : List (Half × Half)) (s : State) (e : ErrCode),
    runTicks xs { s with err := true, lastErr := e } = { runTicks xs s with err := true, lastErr := e }

/-- PHASE changes only as R35 lists. -/
def Obligations.PhaseChangesOnlyAsListed : Prop :=
  ∀ (e : Event) (s t : State) (c : Chan), s.Inv → deliver e s = .next t → (t.ch c).phase ≠ (s.ch c).phase →
    ((t.ch c).phase = .idle ∧
      (e = .reset ∨ commands e .rxAbort ∨ (∃ chm, commands e (.chReset chm) ∧ named chm c = true) ∨
        ((s.ch c).phase = .cal ∧ ∃ chm, commands e (.rxStart chm) ∧ named chm c = false))) ∨
    ((t.ch c).phase = .cal ∧ ((s.ch c).phase = .idle ∨ (s.ch c).phase = .done) ∧
      ∃ chm, commands e (.calStart chm) ∧ named chm c = true) ∨
    ((t.ch c).phase = .wait ∧ ∃ chm, commands e (.rxStart chm) ∧ named chm c = true) ∨
    ((t.ch c).phase = .started ∧ (s.ch c).phase = .wait ∧ ∃ s0 s1, e = .tick s0 s1) ∨
    ((t.ch c).phase = .done ∧ ((s.ch c).phase = .wait ∨ (s.ch c).phase = .started) ∧ ∃ s0 s1, e = .tick s0 s1)

/-! ### Reset and invariants -/

/-- The reset event sets every field of CC8 to the value of R51, in every state; these are the fields of State.reset; and
the derived bits CRC_ZERO, CAL_ACTIVE, BUSY and IRQ are 0 (R51, R230). The model's own two fields are left open here. -/
def Obligations.ResetEventSetsEveryField : Prop :=
  ∀ s : State, ∃ t : State, deliver .reset s = .next t ∧
    t = { crc := 0xFF, ctrl := 0, margin := 0, calSettle := 0, replyTimeout := 0, txnActive := false, txnMask := 0,
          done := false, err := false, aborted := false, lastErr := .none, ch0 := t.ch0, ch1 := t.ch1, rdata := t.rdata,
          inputs := t.inputs } ∧
    (∀ c, t.ch c =
      { phase := .idle, thresh := 0xFFFF, calSum := 0, calCnt := 0, settleLeft := 0, calErr := false, sampleIdx := 0,
        endIdx := 0, startIdx := 0, prev := false, edgeCnt := 0, edges := Vector.replicate 160 0, idleCnt := 0,
        edgeOvf := false, hdrRead := false, hdrOk := false, hdr := 0, valid := false, timeout := false, zeroRun := false,
        zrunCnt := 0, decErr := .none, nbits := 0, octCnt := 0, rxb := Vector.replicate 16 0 }) ∧
    t = { State.reset with rdata := t.rdata, inputs := t.inputs } ∧
    t.crcZero = false ∧ t.calActive = false ∧ t.busy = false ∧ t.irq = false

/-- The invariants hold at reset. -/
def Obligations.ResetMeetsInvariants : Prop := State.reset.Inv

/-- Every step keeps the invariants of R49, from every state that has them. -/
def Obligations.StepKeepsInvariants : Prop := ∀ s t : State, s.Inv → step s = .next t → t.Inv
end

