-- ==== Sys2Proof/Laws/State.lean ====
section
/-! SUPPORT. One lemma per field per named update, true by rfl, so that no later proof unfolds a record update. -/

namespace Sys2Proof.Machine

open Sys2Proof

/-! ### State.raise (60_exceptions.md R201) -/

@[simp] theorem State.raise_crc (e : ErrCode) (s : State) : (s.raise e).crc = s.crc := rfl
@[simp] theorem State.raise_ctrl (e : ErrCode) (s : State) : (s.raise e).ctrl = s.ctrl := rfl
@[simp] theorem State.raise_margin (e : ErrCode) (s : State) : (s.raise e).margin = s.margin := rfl
@[simp] theorem State.raise_calSettle (e : ErrCode) (s : State) : (s.raise e).calSettle = s.calSettle := rfl
@[simp] theorem State.raise_replyTimeout (e : ErrCode) (s : State) : (s.raise e).replyTimeout = s.replyTimeout := rfl
@[simp] theorem State.raise_txnActive (e : ErrCode) (s : State) : (s.raise e).txnActive = s.txnActive := rfl
@[simp] theorem State.raise_txnMask (e : ErrCode) (s : State) : (s.raise e).txnMask = s.txnMask := rfl
@[simp] theorem State.raise_done (e : ErrCode) (s : State) : (s.raise e).done = s.done := rfl
@[simp] theorem State.raise_err (e : ErrCode) (s : State) : (s.raise e).err = true := rfl
@[simp] theorem State.raise_aborted (e : ErrCode) (s : State) : (s.raise e).aborted = s.aborted := rfl
@[simp] theorem State.raise_lastErr (e : ErrCode) (s : State) : (s.raise e).lastErr = e := rfl
@[simp] theorem State.raise_ch0 (e : ErrCode) (s : State) : (s.raise e).ch0 = s.ch0 := rfl
@[simp] theorem State.raise_ch1 (e : ErrCode) (s : State) : (s.raise e).ch1 = s.ch1 := rfl
@[simp] theorem State.raise_rdata (e : ErrCode) (s : State) : (s.raise e).rdata = s.rdata := rfl
@[simp] theorem State.raise_inputs (e : ErrCode) (s : State) : (s.raise e).inputs = s.inputs := rfl
@[simp] theorem State.raise_ch (e : ErrCode) (s : State) (c : Chan) : (s.raise e).ch c = s.ch c := by cases c <;> rfl

/-! ### State.ackStatus (10_state.md R28) -/

@[simp] theorem State.ackStatus_crc (v : Word) (s : State) : (s.ackStatus v).crc = s.crc := rfl
@[simp] theorem State.ackStatus_ctrl (v : Word) (s : State) : (s.ackStatus v).ctrl = s.ctrl := rfl
@[simp] theorem State.ackStatus_margin (v : Word) (s : State) : (s.ackStatus v).margin = s.margin := rfl
@[simp] theorem State.ackStatus_calSettle (v : Word) (s : State) : (s.ackStatus v).calSettle = s.calSettle := rfl
@[simp] theorem State.ackStatus_replyTimeout (v : Word) (s : State) : (s.ackStatus v).replyTimeout = s.replyTimeout := rfl
@[simp] theorem State.ackStatus_txnActive (v : Word) (s : State) : (s.ackStatus v).txnActive = s.txnActive := rfl
@[simp] theorem State.ackStatus_txnMask (v : Word) (s : State) : (s.ackStatus v).txnMask = s.txnMask := rfl
@[simp] theorem State.ackStatus_done (v : Word) (s : State) : (s.ackStatus v).done = (s.done && !v.getLsbD 1) := rfl
@[simp] theorem State.ackStatus_err (v : Word) (s : State) : (s.ackStatus v).err = (s.err && !v.getLsbD 2) := rfl
@[simp] theorem State.ackStatus_aborted (v : Word) (s : State) : (s.ackStatus v).aborted = (s.aborted && !v.getLsbD 3) := rfl
@[simp] theorem State.ackStatus_lastErr (v : Word) (s : State) : (s.ackStatus v).lastErr = (if v.getLsbD 2 then .none else s.lastErr) := rfl
@[simp] theorem State.ackStatus_ch0 (v : Word) (s : State) : (s.ackStatus v).ch0 = s.ch0 := rfl
@[simp] theorem State.ackStatus_ch1 (v : Word) (s : State) : (s.ackStatus v).ch1 = s.ch1 := rfl
@[simp] theorem State.ackStatus_rdata (v : Word) (s : State) : (s.ackStatus v).rdata = s.rdata := rfl
@[simp] theorem State.ackStatus_inputs (v : Word) (s : State) : (s.ackStatus v).inputs = s.inputs := rfl
@[simp] theorem State.ackStatus_ch (v : Word) (s : State) (c : Chan) : (s.ackStatus v).ch c = s.ch c := by cases c <;> rfl

/-! ### State.mapChans and State.mapNamed -/

@[simp] theorem State.mapChans_crc (f : Chan → Channel → Channel) (s : State) : (s.mapChans f).crc = s.crc := rfl
@[simp] theorem State.mapChans_ctrl (f : Chan → Channel → Channel) (s : State) : (s.mapChans f).ctrl = s.ctrl := rfl
@[simp] theorem State.mapChans_margin (f : Chan → Channel → Channel) (s : State) : (s.mapChans f).margin = s.margin := rfl
@[simp] theorem State.mapChans_calSettle (f : Chan → Channel → Channel) (s : State) : (s.mapChans f).calSettle = s.calSettle := rfl
@[simp] theorem State.mapChans_replyTimeout (f : Chan → Channel → Channel) (s : State) : (s.mapChans f).replyTimeout = s.replyTimeout := rfl
@[simp] theorem State.mapChans_txnActive (f : Chan → Channel → Channel) (s : State) : (s.mapChans f).txnActive = s.txnActive := rfl
@[simp] theorem State.mapChans_txnMask (f : Chan → Channel → Channel) (s : State) : (s.mapChans f).txnMask = s.txnMask := rfl
@[simp] theorem State.mapChans_done (f : Chan → Channel → Channel) (s : State) : (s.mapChans f).done = s.done := rfl
@[simp] theorem State.mapChans_err (f : Chan → Channel → Channel) (s : State) : (s.mapChans f).err = s.err := rfl
@[simp] theorem State.mapChans_aborted (f : Chan → Channel → Channel) (s : State) : (s.mapChans f).aborted = s.aborted := rfl
@[simp] theorem State.mapChans_lastErr (f : Chan → Channel → Channel) (s : State) : (s.mapChans f).lastErr = s.lastErr := rfl
@[simp] theorem State.mapChans_ch0 (f : Chan → Channel → Channel) (s : State) : (s.mapChans f).ch0 = f .ch0 s.ch0 := rfl
@[simp] theorem State.mapChans_ch1 (f : Chan → Channel → Channel) (s : State) : (s.mapChans f).ch1 = f .ch1 s.ch1 := rfl
@[simp] theorem State.mapChans_rdata (f : Chan → Channel → Channel) (s : State) : (s.mapChans f).rdata = s.rdata := rfl
@[simp] theorem State.mapChans_inputs (f : Chan → Channel → Channel) (s : State) : (s.mapChans f).inputs = s.inputs := rfl
@[simp] theorem State.mapChans_ch (f : Chan → Channel → Channel) (s : State) (c : Chan) :
    (s.mapChans f).ch c = f c (s.ch c) := by cases c <;> rfl

@[simp] theorem State.mapNamed_crc (chm : ChMask) (f : Channel → Channel) (s : State) : (s.mapNamed chm f).crc = s.crc := rfl
@[simp] theorem State.mapNamed_ctrl (chm : ChMask) (f : Channel → Channel) (s : State) : (s.mapNamed chm f).ctrl = s.ctrl := rfl
@[simp] theorem State.mapNamed_margin (chm : ChMask) (f : Channel → Channel) (s : State) : (s.mapNamed chm f).margin = s.margin := rfl
@[simp] theorem State.mapNamed_calSettle (chm : ChMask) (f : Channel → Channel) (s : State) : (s.mapNamed chm f).calSettle = s.calSettle := rfl
@[simp] theorem State.mapNamed_replyTimeout (chm : ChMask) (f : Channel → Channel) (s : State) : (s.mapNamed chm f).replyTimeout = s.replyTimeout := rfl
@[simp] theorem State.mapNamed_txnActive (chm : ChMask) (f : Channel → Channel) (s : State) : (s.mapNamed chm f).txnActive = s.txnActive := rfl
@[simp] theorem State.mapNamed_txnMask (chm : ChMask) (f : Channel → Channel) (s : State) : (s.mapNamed chm f).txnMask = s.txnMask := rfl
@[simp] theorem State.mapNamed_done (chm : ChMask) (f : Channel → Channel) (s : State) : (s.mapNamed chm f).done = s.done := rfl
@[simp] theorem State.mapNamed_err (chm : ChMask) (f : Channel → Channel) (s : State) : (s.mapNamed chm f).err = s.err := rfl
@[simp] theorem State.mapNamed_aborted (chm : ChMask) (f : Channel → Channel) (s : State) : (s.mapNamed chm f).aborted = s.aborted := rfl
@[simp] theorem State.mapNamed_lastErr (chm : ChMask) (f : Channel → Channel) (s : State) : (s.mapNamed chm f).lastErr = s.lastErr := rfl
@[simp] theorem State.mapNamed_ch0 (chm : ChMask) (f : Channel → Channel) (s : State) : (s.mapNamed chm f).ch0 = if named chm .ch0 then f s.ch0 else s.ch0 := rfl
@[simp] theorem State.mapNamed_ch1 (chm : ChMask) (f : Channel → Channel) (s : State) : (s.mapNamed chm f).ch1 = if named chm .ch1 then f s.ch1 else s.ch1 := rfl
@[simp] theorem State.mapNamed_rdata (chm : ChMask) (f : Channel → Channel) (s : State) : (s.mapNamed chm f).rdata = s.rdata := rfl
@[simp] theorem State.mapNamed_inputs (chm : ChMask) (f : Channel → Channel) (s : State) : (s.mapNamed chm f).inputs = s.inputs := rfl
@[simp] theorem State.mapNamed_ch (chm : ChMask) (f : Channel → Channel) (s : State) (c : Chan) :
    (s.mapNamed chm f).ch c = if named chm c then f (s.ch c) else s.ch c := by cases c <;> rfl

/-! ### The channels read through a change of another field -/

@[simp] theorem State.ch_with_crc (s : State) (x : Byte) (c : Chan) : ({ s with crc := x } : State).ch c = s.ch c := by
  cases c <;> rfl
@[simp] theorem State.ch_with_ctrl (s : State) (x : BitVec 2) (c : Chan) : ({ s with ctrl := x } : State).ch c = s.ch c := by
  cases c <;> rfl
@[simp] theorem State.ch_with_margin (s : State) (x : Half) (c : Chan) : ({ s with margin := x } : State).ch c = s.ch c := by
  cases c <;> rfl
@[simp] theorem State.ch_with_calSettle (s : State) (x : Half) (c : Chan) : ({ s with calSettle := x } : State).ch c = s.ch c := by
  cases c <;> rfl
@[simp] theorem State.ch_with_replyTimeout (s : State) (x : Half) (c : Chan) : ({ s with replyTimeout := x } : State).ch c = s.ch c := by
  cases c <;> rfl
@[simp] theorem State.ch_with_txnActive (s : State) (x : Bool) (c : Chan) : ({ s with txnActive := x } : State).ch c = s.ch c := by
  cases c <;> rfl
@[simp] theorem State.ch_with_txnMask (s : State) (x : ChMask) (c : Chan) : ({ s with txnMask := x } : State).ch c = s.ch c := by
  cases c <;> rfl
@[simp] theorem State.ch_with_done (s : State) (x : Bool) (c : Chan) : ({ s with done := x } : State).ch c = s.ch c := by
  cases c <;> rfl
@[simp] theorem State.ch_with_err (s : State) (x : Bool) (c : Chan) : ({ s with err := x } : State).ch c = s.ch c := by
  cases c <;> rfl
@[simp] theorem State.ch_with_aborted (s : State) (x : Bool) (c : Chan) : ({ s with aborted := x } : State).ch c = s.ch c := by
  cases c <;> rfl
@[simp] theorem State.ch_with_lastErr (s : State) (x : ErrCode) (c : Chan) : ({ s with lastErr := x } : State).ch c = s.ch c := by
  cases c <;> rfl
@[simp] theorem State.ch_with_rdata (s : State) (x : Word) (c : Chan) : ({ s with rdata := x } : State).ch c = s.ch c := by
  cases c <;> rfl
@[simp] theorem State.ch_with_inputs (s : State) (x : List Event) (c : Chan) : ({ s with inputs := x } : State).ch c = s.ch c := by
  cases c <;> rfl

/-! ### State.resetEvent (70_reset_and_hazards.md R230) -/

@[simp] theorem State.resetEvent_crc (s : State) : s.resetEvent.crc = State.reset.crc := rfl
@[simp] theorem State.resetEvent_ctrl (s : State) : s.resetEvent.ctrl = State.reset.ctrl := rfl
@[simp] theorem State.resetEvent_margin (s : State) : s.resetEvent.margin = State.reset.margin := rfl
@[simp] theorem State.resetEvent_calSettle (s : State) : s.resetEvent.calSettle = State.reset.calSettle := rfl
@[simp] theorem State.resetEvent_replyTimeout (s : State) : s.resetEvent.replyTimeout = State.reset.replyTimeout := rfl
@[simp] theorem State.resetEvent_txnActive (s : State) : s.resetEvent.txnActive = State.reset.txnActive := rfl
@[simp] theorem State.resetEvent_txnMask (s : State) : s.resetEvent.txnMask = State.reset.txnMask := rfl
@[simp] theorem State.resetEvent_done (s : State) : s.resetEvent.done = State.reset.done := rfl
@[simp] theorem State.resetEvent_err (s : State) : s.resetEvent.err = State.reset.err := rfl
@[simp] theorem State.resetEvent_aborted (s : State) : s.resetEvent.aborted = State.reset.aborted := rfl
@[simp] theorem State.resetEvent_lastErr (s : State) : s.resetEvent.lastErr = State.reset.lastErr := rfl
@[simp] theorem State.resetEvent_ch0 (s : State) : s.resetEvent.ch0 = State.reset.ch0 := rfl
@[simp] theorem State.resetEvent_ch1 (s : State) : s.resetEvent.ch1 = State.reset.ch1 := rfl
@[simp] theorem State.resetEvent_rdata (s : State) : s.resetEvent.rdata = s.rdata := rfl
@[simp] theorem State.resetEvent_inputs (s : State) : s.resetEvent.inputs = s.inputs := rfl

/-! ### Channel.clearRx and Channel.clearChannel (10_state.md R52) -/

@[simp] theorem Channel.clearRx_phase (k : Channel) : k.clearRx.phase = k.phase := rfl
@[simp] theorem Channel.clearRx_thresh (k : Channel) : k.clearRx.thresh = k.thresh := rfl
@[simp] theorem Channel.clearRx_calSum (k : Channel) : k.clearRx.calSum = k.calSum := rfl
@[simp] theorem Channel.clearRx_calCnt (k : Channel) : k.clearRx.calCnt = k.calCnt := rfl
@[simp] theorem Channel.clearRx_settleLeft (k : Channel) : k.clearRx.settleLeft = k.settleLeft := rfl
@[simp] theorem Channel.clearRx_calErr (k : Channel) : k.clearRx.calErr = k.calErr := rfl
@[simp] theorem Channel.clearRx_sampleIdx (k : Channel) : k.clearRx.sampleIdx = 0 := rfl
@[simp] theorem Channel.clearRx_endIdx (k : Channel) : k.clearRx.endIdx = 0 := rfl
@[simp] theorem Channel.clearRx_startIdx (k : Channel) : k.clearRx.startIdx = 0 := rfl
@[simp] theorem Channel.clearRx_prev (k : Channel) : k.clearRx.prev = false := rfl
@[simp] theorem Channel.clearRx_edgeCnt (k : Channel) : k.clearRx.edgeCnt = 0 := rfl
@[simp] theorem Channel.clearRx_edges (k : Channel) : k.clearRx.edges = Vector.replicate 160 0 := rfl
@[simp] theorem Channel.clearRx_idleCnt (k : Channel) : k.clearRx.idleCnt = 0 := rfl
@[simp] theorem Channel.clearRx_edgeOvf (k : Channel) : k.clearRx.edgeOvf = false := rfl
@[simp] theorem Channel.clearRx_hdrRead (k : Channel) : k.clearRx.hdrRead = false := rfl
@[simp] theorem Channel.clearRx_hdrOk (k : Channel) : k.clearRx.hdrOk = false := rfl
@[simp] theorem Channel.clearRx_hdr (k : Channel) : k.clearRx.hdr = 0 := rfl
@[simp] theorem Channel.clearRx_valid (k : Channel) : k.clearRx.valid = false := rfl
@[simp] theorem Channel.clearRx_timeout (k : Channel) : k.clearRx.timeout = false := rfl
@[simp] theorem Channel.clearRx_zeroRun (k : Channel) : k.clearRx.zeroRun = false := rfl
@[simp] theorem Channel.clearRx_zrunCnt (k : Channel) : k.clearRx.zrunCnt = 0 := rfl
@[simp] theorem Channel.clearRx_decErr (k : Channel) : k.clearRx.decErr = .none := rfl
@[simp] theorem Channel.clearRx_nbits (k : Channel) : k.clearRx.nbits = 0 := rfl
@[simp] theorem Channel.clearRx_octCnt (k : Channel) : k.clearRx.octCnt = 0 := rfl
@[simp] theorem Channel.clearRx_rxb (k : Channel) : k.clearRx.rxb = Vector.replicate 16 0 := rfl

@[simp] theorem Channel.clearChannel_phase (k : Channel) : k.clearChannel.phase = .idle := rfl
@[simp] theorem Channel.clearChannel_thresh (k : Channel) : k.clearChannel.thresh = k.thresh := rfl
@[simp] theorem Channel.clearChannel_calSum (k : Channel) : k.clearChannel.calSum = 0 := rfl
@[simp] theorem Channel.clearChannel_calCnt (k : Channel) : k.clearChannel.calCnt = 0 := rfl
@[simp] theorem Channel.clearChannel_settleLeft (k : Channel) : k.clearChannel.settleLeft = 0 := rfl
@[simp] theorem Channel.clearChannel_calErr (k : Channel) : k.clearChannel.calErr = false := rfl
@[simp] theorem Channel.clearChannel_sampleIdx (k : Channel) : k.clearChannel.sampleIdx = 0 := rfl
@[simp] theorem Channel.clearChannel_endIdx (k : Channel) : k.clearChannel.endIdx = 0 := rfl
@[simp] theorem Channel.clearChannel_startIdx (k : Channel) : k.clearChannel.startIdx = 0 := rfl
@[simp] theorem Channel.clearChannel_prev (k : Channel) : k.clearChannel.prev = false := rfl
@[simp] theorem Channel.clearChannel_edgeCnt (k : Channel) : k.clearChannel.edgeCnt = 0 := rfl
@[simp] theorem Channel.clearChannel_edges (k : Channel) : k.clearChannel.edges = Vector.replicate 160 0 := rfl
@[simp] theorem Channel.clearChannel_idleCnt (k : Channel) : k.clearChannel.idleCnt = 0 := rfl
@[simp] theorem Channel.clearChannel_edgeOvf (k : Channel) : k.clearChannel.edgeOvf = false := rfl
@[simp] theorem Channel.clearChannel_hdrRead (k : Channel) : k.clearChannel.hdrRead = false := rfl
@[simp] theorem Channel.clearChannel_hdrOk (k : Channel) : k.clearChannel.hdrOk = false := rfl
@[simp] theorem Channel.clearChannel_hdr (k : Channel) : k.clearChannel.hdr = 0 := rfl
@[simp] theorem Channel.clearChannel_valid (k : Channel) : k.clearChannel.valid = false := rfl
@[simp] theorem Channel.clearChannel_timeout (k : Channel) : k.clearChannel.timeout = false := rfl
@[simp] theorem Channel.clearChannel_zeroRun (k : Channel) : k.clearChannel.zeroRun = false := rfl
@[simp] theorem Channel.clearChannel_zrunCnt (k : Channel) : k.clearChannel.zrunCnt = 0 := rfl
@[simp] theorem Channel.clearChannel_decErr (k : Channel) : k.clearChannel.decErr = .none := rfl
@[simp] theorem Channel.clearChannel_nbits (k : Channel) : k.clearChannel.nbits = 0 := rfl
@[simp] theorem Channel.clearChannel_octCnt (k : Channel) : k.clearChannel.octCnt = 0 := rfl
@[simp] theorem Channel.clearChannel_rxb (k : Channel) : k.clearChannel.rxb = Vector.replicate 16 0 := rfl

/-! ### Channel.startCal (41_channel_control.md R131) -/

@[simp] theorem Channel.startCal_phase (v : Half) (k : Channel) : (k.startCal v).phase = .cal := rfl
@[simp] theorem Channel.startCal_thresh (v : Half) (k : Channel) : (k.startCal v).thresh = k.thresh := rfl
@[simp] theorem Channel.startCal_calSum (v : Half) (k : Channel) : (k.startCal v).calSum = 0 := rfl
@[simp] theorem Channel.startCal_calCnt (v : Half) (k : Channel) : (k.startCal v).calCnt = 0 := rfl
@[simp] theorem Channel.startCal_settleLeft (v : Half) (k : Channel) : (k.startCal v).settleLeft = v := rfl
@[simp] theorem Channel.startCal_calErr (v : Half) (k : Channel) : (k.startCal v).calErr = false := rfl
@[simp] theorem Channel.startCal_sampleIdx (v : Half) (k : Channel) : (k.startCal v).sampleIdx = 0 := rfl
@[simp] theorem Channel.startCal_endIdx (v : Half) (k : Channel) : (k.startCal v).endIdx = 0 := rfl
@[simp] theorem Channel.startCal_startIdx (v : Half) (k : Channel) : (k.startCal v).startIdx = 0 := rfl
@[simp] theorem Channel.startCal_prev (v : Half) (k : Channel) : (k.startCal v).prev = false := rfl
@[simp] theorem Channel.startCal_edgeCnt (v : Half) (k : Channel) : (k.startCal v).edgeCnt = 0 := rfl
@[simp] theorem Channel.startCal_edges (v : Half) (k : Channel) : (k.startCal v).edges = Vector.replicate 160 0 := rfl
@[simp] theorem Channel.startCal_idleCnt (v : Half) (k : Channel) : (k.startCal v).idleCnt = 0 := rfl
@[simp] theorem Channel.startCal_edgeOvf (v : Half) (k : Channel) : (k.startCal v).edgeOvf = false := rfl
@[simp] theorem Channel.startCal_hdrRead (v : Half) (k : Channel) : (k.startCal v).hdrRead = false := rfl
@[simp] theorem Channel.startCal_hdrOk (v : Half) (k : Channel) : (k.startCal v).hdrOk = false := rfl
@[simp] theorem Channel.startCal_hdr (v : Half) (k : Channel) : (k.startCal v).hdr = 0 := rfl
@[simp] theorem Channel.startCal_valid (v : Half) (k : Channel) : (k.startCal v).valid = false := rfl
@[simp] theorem Channel.startCal_timeout (v : Half) (k : Channel) : (k.startCal v).timeout = false := rfl
@[simp] theorem Channel.startCal_zeroRun (v : Half) (k : Channel) : (k.startCal v).zeroRun = false := rfl
@[simp] theorem Channel.startCal_zrunCnt (v : Half) (k : Channel) : (k.startCal v).zrunCnt = 0 := rfl
@[simp] theorem Channel.startCal_decErr (v : Half) (k : Channel) : (k.startCal v).decErr = .none := rfl
@[simp] theorem Channel.startCal_nbits (v : Half) (k : Channel) : (k.startCal v).nbits = 0 := rfl
@[simp] theorem Channel.startCal_octCnt (v : Half) (k : Channel) : (k.startCal v).octCnt = 0 := rfl
@[simp] theorem Channel.startCal_rxb (v : Half) (k : Channel) : (k.startCal v).rxb = Vector.replicate 16 0 := rfl

/-! ### Channel.decodeRx and Channel.finalize (43_bit_sync.md R187): the fields they leave, and the ones they write -/

@[simp] theorem Channel.decodeRx_phase (k : Channel) : k.decodeRx.phase = k.phase := rfl
@[simp] theorem Channel.decodeRx_thresh (k : Channel) : k.decodeRx.thresh = k.thresh := rfl
@[simp] theorem Channel.decodeRx_calSum (k : Channel) : k.decodeRx.calSum = k.calSum := rfl
@[simp] theorem Channel.decodeRx_calCnt (k : Channel) : k.decodeRx.calCnt = k.calCnt := rfl
@[simp] theorem Channel.decodeRx_settleLeft (k : Channel) : k.decodeRx.settleLeft = k.settleLeft := rfl
@[simp] theorem Channel.decodeRx_calErr (k : Channel) : k.decodeRx.calErr = k.calErr := rfl
@[simp] theorem Channel.decodeRx_sampleIdx (k : Channel) : k.decodeRx.sampleIdx = k.sampleIdx := rfl
@[simp] theorem Channel.decodeRx_endIdx (k : Channel) : k.decodeRx.endIdx = k.endIdx := rfl
@[simp] theorem Channel.decodeRx_startIdx (k : Channel) : k.decodeRx.startIdx = k.startIdx := rfl
@[simp] theorem Channel.decodeRx_prev (k : Channel) : k.decodeRx.prev = k.prev := rfl
@[simp] theorem Channel.decodeRx_edgeCnt (k : Channel) : k.decodeRx.edgeCnt = k.edgeCnt := rfl
@[simp] theorem Channel.decodeRx_edges (k : Channel) : k.decodeRx.edges = k.edges := rfl
@[simp] theorem Channel.decodeRx_idleCnt (k : Channel) : k.decodeRx.idleCnt = k.idleCnt := rfl
@[simp] theorem Channel.decodeRx_edgeOvf (k : Channel) : k.decodeRx.edgeOvf = k.edgeOvf := rfl
@[simp] theorem Channel.decodeRx_hdrRead (k : Channel) : k.decodeRx.hdrRead = k.hdrRead := rfl
@[simp] theorem Channel.decodeRx_hdrOk (k : Channel) : k.decodeRx.hdrOk = k.hdrOk := rfl
@[simp] theorem Channel.decodeRx_hdr (k : Channel) : k.decodeRx.hdr = k.hdr := rfl
@[simp] theorem Channel.decodeRx_valid (k : Channel) :
    k.decodeRx.valid = decide (k.edgeCnt.toNat > 0) := rfl
@[simp] theorem Channel.decodeRx_timeout (k : Channel) : k.decodeRx.timeout = k.timeout := rfl
@[simp] theorem Channel.decodeRx_zeroRun (k : Channel) :
    k.decodeRx.zeroRun = decide ((processBits k.edgeList Config.capBits).zeros > 0) := rfl
@[simp] theorem Channel.decodeRx_zrunCnt (k : Channel) :
    k.decodeRx.zrunCnt = BitVec.ofNat 8 (min 255 (processBits k.edgeList Config.capBits).zeros) := rfl
@[simp] theorem Channel.decodeRx_decErr (k : Channel) :
    k.decodeRx.decErr = (processBits k.edgeList Config.capBits).err := rfl
@[simp] theorem Channel.decodeRx_nbits (k : Channel) :
    k.decodeRx.nbits = BitVec.ofNat 8 (processBits k.edgeList Config.capBits).nb := rfl
@[simp] theorem Channel.decodeRx_octCnt (k : Channel) :
    k.decodeRx.octCnt = k.declared := rfl
@[simp] theorem Channel.decodeRx_rxb (k : Channel) :
    k.decodeRx.rxb = Vector.ofFn fun j : Fin 16 => octetAt (processBits k.edgeList Config.capBits).bits j.val := rfl

@[simp] theorem Channel.finalize_phase (k : Channel) : k.finalize.phase = .done := rfl
@[simp] theorem Channel.finalize_thresh (k : Channel) : k.finalize.thresh = k.thresh := rfl
@[simp] theorem Channel.finalize_calSum (k : Channel) : k.finalize.calSum = k.calSum := rfl
@[simp] theorem Channel.finalize_calCnt (k : Channel) : k.finalize.calCnt = k.calCnt := rfl
@[simp] theorem Channel.finalize_settleLeft (k : Channel) : k.finalize.settleLeft = k.settleLeft := rfl
@[simp] theorem Channel.finalize_calErr (k : Channel) : k.finalize.calErr = k.calErr := rfl
@[simp] theorem Channel.finalize_sampleIdx (k : Channel) : k.finalize.sampleIdx = k.sampleIdx := rfl
@[simp] theorem Channel.finalize_endIdx (k : Channel) : k.finalize.endIdx = k.endIdx := rfl
@[simp] theorem Channel.finalize_startIdx (k : Channel) : k.finalize.startIdx = k.startIdx := rfl
@[simp] theorem Channel.finalize_prev (k : Channel) : k.finalize.prev = k.prev := rfl
@[simp] theorem Channel.finalize_edgeCnt (k : Channel) : k.finalize.edgeCnt = k.edgeCnt := rfl
@[simp] theorem Channel.finalize_edges (k : Channel) : k.finalize.edges = k.edges := rfl
@[simp] theorem Channel.finalize_idleCnt (k : Channel) : k.finalize.idleCnt = k.idleCnt := rfl
@[simp] theorem Channel.finalize_edgeOvf (k : Channel) : k.finalize.edgeOvf = k.edgeOvf := rfl
@[simp] theorem Channel.finalize_hdrRead (k : Channel) : k.finalize.hdrRead = k.hdrRead := rfl
@[simp] theorem Channel.finalize_hdrOk (k : Channel) : k.finalize.hdrOk = k.hdrOk := rfl
@[simp] theorem Channel.finalize_hdr (k : Channel) : k.finalize.hdr = k.hdr := rfl
@[simp] theorem Channel.finalize_valid (k : Channel) : k.finalize.valid = k.decodeRx.valid := rfl
@[simp] theorem Channel.finalize_timeout (k : Channel) : k.finalize.timeout = k.timeout := rfl
@[simp] theorem Channel.finalize_zeroRun (k : Channel) : k.finalize.zeroRun = k.decodeRx.zeroRun := rfl
@[simp] theorem Channel.finalize_zrunCnt (k : Channel) : k.finalize.zrunCnt = k.decodeRx.zrunCnt := rfl
@[simp] theorem Channel.finalize_decErr (k : Channel) : k.finalize.decErr = k.decodeRx.decErr := rfl
@[simp] theorem Channel.finalize_nbits (k : Channel) : k.finalize.nbits = k.decodeRx.nbits := rfl
@[simp] theorem Channel.finalize_octCnt (k : Channel) : k.finalize.octCnt = k.decodeRx.octCnt := rfl
@[simp] theorem Channel.finalize_rxb (k : Channel) : k.finalize.rxb = k.decodeRx.rxb := rfl

end Sys2Proof.Machine
end

