-- ==== Sys2Proof/Laws/Ops.lean ====
section
/-! SUPPORT. What each shared operation can do, said once. -/

namespace Sys2Proof.Machine

open Sys2Proof

/-! ### Channel sets -/

theorem anyChan_eq_true (p : Chan → Bool) : anyChan p = true ↔ ∃ c, p c = true := by
  constructor
  · intro h
    rcases Bool.or_eq_true_iff.mp h with h | h
    · exact ⟨.ch0, h⟩
    · exact ⟨.ch1, h⟩
  · rintro ⟨c, h⟩
    cases c <;> simp [anyChan, h]

theorem anyNamed_eq_true (chm : ChMask) (p : Channel → Bool) (s : State) :
    s.anyNamed chm p = true ↔ ∃ c, named chm c = true ∧ p (s.ch c) = true := by
  simp [State.anyNamed, anyChan_eq_true]

theorem allMasked_eq_true (s : State) (p : Channel → Bool) :
    s.allMasked p = true ↔ ∀ c, named s.txnMask c = true → p (s.ch c) = true := by
  constructor
  · intro h c hc
    cases c <;> simp_all [State.allMasked, State.ch]
  · intro h
    have h0 := h .ch0
    have h1 := h .ch1
    simp only [State.ch] at h0 h1
    cases hn0 : named s.txnMask .ch0 <;> cases hn1 : named s.txnMask .ch1 <;>
      simp_all [State.allMasked]

/-- The empty channel set names no channel. -/
@[simp] theorem named_zero (c : Chan) : named 0 c = false := by cases c <;> rfl

/-- Two states with the same global fields and the same channels are the same state. -/
theorem State.ext_ch {s t : State} (h : t = { s with ch0 := t.ch0, ch1 := t.ch1 }) (hc : ∀ c, t.ch c = s.ch c) : t = s := by
  have h0 := hc .ch0
  have h1 := hc .ch1
  simp only [State.ch] at h0 h1
  rw [h, h0, h1]

/-! ### Flags -/

theorem calActive_eq_true (s : State) : s.calActive = true ↔ ∃ c, (s.ch c).phase = .cal := by
  simp [State.calActive, anyChan_eq_true]

theorem busy_eq_true (s : State) : s.busy = true ↔ s.txnActive = true ∨ ∃ c, (s.ch c).phase = .cal := by
  simp [State.busy, calActive_eq_true]

theorem quiet_eq_true (k : Channel) : k.quiet = true ↔ k.phase = .idle ∨ k.phase = .done := by
  simp [Channel.quiet]

theorem running_eq_true (k : Channel) : k.running = true ↔ k.phase = .cal ∨ k.phase = .wait ∨ k.phase = .started := by
  simp [Channel.running, or_assoc]

theorem inTxn_eq_true (s : State) (c : Chan) : s.inTxn c = true ↔ s.txnActive = true ∧ named s.txnMask c = true := by
  simp [State.inTxn]

theorem hi_eq_true (k : Channel) (x : Half) : k.hi x = true ↔ k.thresh.toNat < x.toNat := by
  simp [Channel.hi]

theorem isIdle_eq_true (v : Half) (k : Channel) : k.isIdle v = true ↔ v.toNat < k.idleCnt.toNat := by
  simp [Channel.isIdle]

/-- `sat_16(v + 1)` (00_scope.md R9, R13). -/
theorem satInc_toNat (v : Half) : (satInc v).toNat = min 65535 (v.toNat + 1) := by
  unfold satInc
  split
  · next h => subst h; rfl
  · next h =>
    have hv : v.toNat ≠ 65535 := fun h' => h (BitVec.eq_of_toNat_eq h')
    have := v.isLt
    rw [BitVec.toNat_add]
    simp
    omega

/-! ### Recording an edge (42_edge_detector.md R156) -/

theorem recordEdge_of_full (k : Channel) (t : Half) (h : 160 ≤ k.edgeCnt.toNat) :
    k.recordEdge t = { k with edgeOvf := true } := if_neg (Nat.not_lt.mpr h)

theorem recordEdge_of_room (k : Channel) (t : Half) (h : k.edgeCnt.toNat < 160) :
    k.recordEdge t = { k with edges := k.edges.setIfInBounds k.edgeCnt.toNat t, edgeCnt := k.edgeCnt + 1 } := if_pos h

/-- RecordEdge changes E, EDGE_CNT and EDGE_OVF only. -/
theorem recordEdge_frame (k : Channel) (t : Half) :
    k.recordEdge t =
      { k with
        edges := (k.recordEdge t).edges, edgeCnt := (k.recordEdge t).edgeCnt, edgeOvf := (k.recordEdge t).edgeOvf } := by
  unfold Channel.recordEdge
  split <;> rfl

theorem recordEdge_edgeCnt (k : Channel) (t : Half) (h : k.edgeCnt.toNat < 160) :
    (k.recordEdge t).edgeCnt.toNat = k.edgeCnt.toNat + 1 := by
  rw [recordEdge_of_room k t h]
  simp [BitVec.toNat_add]
  omega

theorem recordEdge_edges (k : Channel) (t : Half) (h : k.edgeCnt.toNat < 160) (i : Nat) :
    (k.recordEdge t).edges[i]? = if i = k.edgeCnt.toNat then some t else k.edges[i]? := by
  rw [recordEdge_of_room k t h]
  simp only [Vector.getElem?_setIfInBounds]
  by_cases hi : k.edgeCnt.toNat = i
  · simp [hi, hi ▸ h]
  · simp [hi, Ne.symm hi]

/-- The recorded list is what it was, with the timestamp at its end. -/
theorem recordEdge_edgeList (k : Channel) (t : Half) (h : k.edgeCnt.toNat < 160) :
    (k.recordEdge t).edgeList = k.edgeList ++ [t] := by
  have hlen : k.edges.toList.length = 160 := by simp
  unfold Channel.edgeList
  rw [recordEdge_edgeCnt k t h, recordEdge_of_room k t h]
  simp only [Vector.toList_setIfInBounds]
  rw [List.take_add_one, List.take_set_of_le (Nat.le_refl _)]
  simp [h]

/-- With no edge counted the recorded list is empty. -/
theorem edgeList_of_none (k : Channel) (h : k.edgeCnt = 0) : k.edgeList = [] := by simp [Channel.edgeList, h]

/-! ### The decoder (43_bit_sync.md R180) -/

/-- A gap of no bits is only counted (R184). -/
theorem gapStep_of_zero (cap : Nat) (lvl : Bool) (g : Half) (a : BitAcc) (h : gapBits g = 0) :
    gapStep cap lvl g a = { a with zeros := a.zeros + 1 } := by simp [gapStep, h]

/-- More than eight bits after the start bit is the failure (R183). -/
theorem gapStep_of_long (cap : Nat) (lvl : Bool) (g : Half) (a : BitAcc)
    (h : 8 < if a.pos = 0 then gapBits g - 1 else gapBits g) : gapStep cap lvl g a = { a with err := .missingStart } := by
  have h0 : gapBits g ≠ 0 := by split at h <;> omega
  simp only [gapStep, if_neg h0]
  exact if_pos h

/-- Any other gap appends the bits that fit the group and the capacity (R180, R183). -/
theorem gapStep_of_run (cap : Nat) (lvl : Bool) (g : Half) (a : BitAcc) (h0 : gapBits g ≠ 0)
    (h : (if a.pos = 0 then gapBits g - 1 else gapBits g) ≤ 8) :
    let pos := if a.pos = 0 then 1 else a.pos
    let k := min (if a.pos = 0 then gapBits g - 1 else gapBits g) (min (9 - pos) (cap - a.bits.length))
    gapStep cap lvl g a =
      { a with bits := a.bits ++ List.replicate k lvl, pos := if pos + k = 9 then 0 else pos + k } := by
  simp only [gapStep, if_neg h0]
  exact if_neg (Nat.not_lt.mpr h)

/-- One gap never takes B past the capacity. -/
theorem gapStep_length (cap : Nat) (lvl : Bool) (g : Half) (a : BitAcc) (h : a.bits.length ≤ cap) :
    (gapStep cap lvl g a).bits.length ≤ cap := by
  simp only [gapStep]
  split_ifs <;> first | exact h | (simp; omega)

/-- One gap only appends to B. -/
theorem gapStep_appends (cap : Nat) (lvl : Bool) (g : Half) (a : BitAcc) :
    ∃ n, (gapStep cap lvl g a).bits = a.bits ++ List.replicate n lvl := by
  simp only [gapStep]
  split_ifs <;> first | exact ⟨_, rfl⟩ | exact ⟨0, by simp⟩

/-- The walk never takes B past the capacity. -/
theorem walkEdges_length (cap : Nat) (lvl : Bool) (e : Half) (rest : List Half) (a : BitAcc) (h : a.bits.length ≤ cap) :
    (walkEdges cap lvl e rest a).bits.length ≤ cap := by
  induction rest generalizing lvl e a with
  | nil => exact h
  | cons e' rest ih =>
    simp only [walkEdges]
    split
    · exact h
    · exact ih _ _ _ (gapStep_length _ _ _ _ h)

/-- Eight binary digits stay below 2^8. -/
theorem bitsValue_lt (bs : List Bool) : bitsValue bs < 2 ^ bs.length := by
  induction bs with
  | nil => simp [bitsValue]
  | cons b bs ih =>
    cases b <;> simp [bitsValue, Nat.pow_succ] <;> omega

/-- The binary digits of a number written in binary. -/
theorem bitsValue_testBit (bs : List Bool) (i : Nat) : (bitsValue bs).testBit i = bs.getD i false := by
  induction bs generalizing i with
  | nil => simp [bitsValue]
  | cons b bs ih =>
    cases i with
    | zero => cases b <;> simp [bitsValue, Nat.testBit_zero]
    | succ i =>
      have h : (b.toNat + 2 * bitsValue bs) / 2 = bitsValue bs := by cases b <;> simp; omega
      simp [bitsValue, Nat.testBit_succ, h, ih]

/-- Bit b of octet j is B[8j+b], 0 past the end of B (R186). -/
theorem octetAt_getLsbD (bits : List Bool) (j b : Nat) (hb : b < 8) :
    (octetAt bits j).getLsbD b = bits.getD (8 * j + b) false := by
  unfold octetAt
  rw [BitVec.getLsbD_ofNat, bitsValue_testBit]
  simp [List.getD, List.getElem?_drop, hb]

/-- DECL is at most the largest frame (00_scope.md R7). -/
theorem decl_le (len : BitVec 4) : decl len ≤ 16 := by
  have := len.isLt
  unfold decl
  split <;> omega

/-! ### The receive window (42_edge_detector.md R152 to R158) -/

/-- EndCheck finalizes the channel or leaves it (R158). -/
theorem endCheck_cases (k : Channel) :
    (k.endIdx.toNat ≤ k.sampleIdx.toNat ∧ k.endCheck = k.finalize) ∨
    (k.sampleIdx.toNat < k.endIdx.toNat ∧ k.endCheck = k) := by
  unfold Channel.endCheck
  by_cases h : k.endIdx.toNat ≤ k.sampleIdx.toNat
  · exact .inl ⟨h, if_pos h⟩
  · exact .inr ⟨Nat.not_le.mp h, if_neg h⟩

/-- HeaderDecode changes HDR_READ, HDR, HDR_OK and END_IDX only, and sets HDR_READ (R157). -/
theorem headerDecode_frame (k : Channel) :
    k.headerDecode =
      { k with
        hdrRead := true, hdr := k.headerDecode.hdr, hdrOk := k.headerDecode.hdrOk, endIdx := k.headerDecode.endIdx } := by
  unfold Channel.headerDecode
  simp only
  split <;> rfl

/-- The header check decodes the header or leaves the channel (R155). -/
theorem headerCheck_cases (k : Channel) :
    (k.hdrRead = false ∧ k.sampleIdx.toNat = k.startIdx.toNat + 100 ∧ k.headerCheck = k.headerDecode) ∨
    (¬ (k.hdrRead = false ∧ k.sampleIdx.toNat = k.startIdx.toNat + 100) ∧ k.headerCheck = k) := by
  unfold Channel.headerCheck
  by_cases h : k.hdrRead = false ∧ k.sampleIdx.toNat = k.startIdx.toNat + 100
  · exact .inl ⟨h.1, h.2, if_pos h⟩
  · exact .inr ⟨h, if_neg h⟩

/-- ChannelTick in WAIT, by its parts (R154). -/
theorem tick_of_wait (b : Bool) (x : Half) (k : Channel) (h : k.phase = .wait) :
    k.tick b x = (k.waitSample x).advance := by simp [Channel.tick, h, Channel.tickWait]

/-- ChannelTick in STARTED, by its parts (R155). -/
theorem tick_of_started (b : Bool) (x : Half) (k : Channel) (h : k.phase = .started) :
    k.tick b x = (k.startedSample x).headerCheck.advance := by simp [Channel.tick, h, Channel.tickStarted]

/-- The crossing half of a STARTED tick records the index or counts IDLE_CNT (R155). -/
theorem startedSample_cases (x : Half) (k : Channel) :
    (k.prev ≠ k.hi x ∧
      k.startedSample x = { (k.recordEdge k.sampleIdx) with prev := k.hi x, idleCnt := 0 }) ∨
    (k.prev = k.hi x ∧ k.startedSample x = { k with idleCnt := satInc k.idleCnt }) := by
  unfold Channel.startedSample
  by_cases h : k.hi x = k.prev
  · exact .inr ⟨h.symm, if_neg (not_not.mpr h)⟩
  · exact .inl ⟨Ne.symm h, if_pos h⟩

/-- The crossing half of a WAIT tick records the start edge or counts IDLE_CNT (R154). -/
theorem waitSample_cases (x : Half) (k : Channel) :
    (k.hi x = true ∧
      k.waitSample x =
        { ({ k with startIdx := k.sampleIdx }.recordEdge k.sampleIdx) with prev := true, phase := .started, idleCnt := 0 }) ∨
    (k.hi x = false ∧ k.waitSample x = { k with idleCnt := satInc k.idleCnt }) := by
  unfold Channel.waitSample
  cases h : k.hi x <;> simp

/-- ChannelTick in CAL: a settle tick, a sample accumulated, or nothing at 0xFFFF samples (R152). -/
theorem tickCal_cases (x : Half) (k : Channel) :
    (k.settleLeft ≠ 0 ∧ k.tickCal x = { k with settleLeft := k.settleLeft - 1 }) ∨
    (k.settleLeft = 0 ∧ k.calCnt ≠ 0xFFFF ∧
      k.tickCal x = { k with calSum := k.calSum + x.setWidth 32, calCnt := k.calCnt + 1 }) ∨
    (k.settleLeft = 0 ∧ k.calCnt = 0xFFFF ∧ k.tickCal x = k) := by
  unfold Channel.tickCal
  by_cases h : k.settleLeft = 0
  · by_cases h' : k.calCnt = 0xFFFF
    · exact .inr (.inr ⟨h, h', by rw [if_neg (not_not.mpr h), if_neg (not_not.mpr h')]⟩)
    · exact .inr (.inl ⟨h, h', by rw [if_neg (not_not.mpr h), if_pos h']⟩)
  · exact .inl ⟨h, if_pos h⟩

/-- ComputeThreshold changes THRESH and CAL_ERR only (41_channel_control.md R133). -/
theorem computeThreshold_frame (m : Half) (k : Channel) :
    k.computeThreshold m = { k with thresh := (k.computeThreshold m).thresh, calErr := (k.computeThreshold m).calErr } := by
  unfold Channel.computeThreshold
  split <;> rfl

/-! ### Completion (42_edge_detector.md R160) -/

/-- CompletionCheck either ends the transaction or changes nothing. -/
theorem completionCheck_cases (s : State) :
    (s.completes = true ∧
      s.completionCheck =
        { (s.mapNamed s.txnMask Channel.complete) with txnActive := false, txnMask := 0, done := true }) ∨
    (s.completes = false ∧ s.completionCheck = s) := by
  unfold State.completionCheck
  cases s.completes <;> simp

/-- The completion of a channel is Finalize with TIMEOUT, or nothing. -/
theorem complete_cases (k : Channel) :
    (k.phase = .done ∧ k.complete = k) ∨
    (k.phase ≠ .done ∧ k.complete = ({ k with timeout := true } : Channel).finalize) := by
  unfold Channel.complete
  by_cases h : k.phase = .done <;> simp [h]

/-- CompletionCheck leaves a channel that is DONE. -/
theorem completionCheck_ch_of_done (s : State) (c : Chan) (h : (s.ch c).phase = .done) :
    s.completionCheck.ch c = s.ch c := by
  have hc : (s.ch c).complete = s.ch c := by simp [Channel.complete, h]
  rcases completionCheck_cases s with ⟨-, e⟩ | ⟨-, e⟩ <;> rw [e]
  cases c <;> simp only [State.ch] at hc ⊢ <;> simp [hc]

/-! ### The parameters -/

/-- A register's platform address selects that register (20_memory.md R70). -/
theorem offsetAt_platformAddr (off : Offset) : offsetAt (platformAddr off) = some off := by
  have h := off.isLt
  have h' : Config.cc8Base + off.toNat < Config.cc8Base + 4096 := by omega
  simp [offsetAt, platformAddr, h']

/-- CC8_BASE is 4 KiB-aligned (92_eei_decisions.md OPEN-1). -/
theorem cc8Base_aligned : Config.cc8Base % 4096 = 0 := Nat.mul_mod_right _ _

end Sys2Proof.Machine
end

