-- ==== Sys2Proof/Laws/Meanings.lean ====
section
/-! SUPPORT. What each command and each event can do when it answers a next state: one inversion lemma per meaning, which
later proofs cite instead of unfolding it. -/

namespace Sys2Proof.Machine

open Sys2Proof

theorem execChReset_cases {chm : ChMask} {s t : State} (h : execChReset chm s = .next t) :
    ((∃ c, named chm c = true ∧ s.inTxn c = true) ∧ t = s.raise .busy) ∨
    ((∀ c, named chm c = true → s.inTxn c = false) ∧ t = s.mapNamed chm Channel.clearChannel) := by
  unfold execChReset at h
  split at h
  · next hb =>
    obtain ⟨c, hc⟩ := (anyChan_eq_true _).mp hb
    exact .inl ⟨⟨c, by simpa using hc⟩, by cases h; rfl⟩
  · next hb =>
    refine .inr ⟨fun c hc => ?_, by cases h; rfl⟩
    by_contra hx
    exact hb ((anyChan_eq_true _).mpr ⟨c, by simp [hc, Bool.eq_true_of_not_eq_false hx]⟩)

theorem execCalStart_cases {chm : ChMask} {s t : State} (h : execCalStart chm s = .next t) :
    (s.txnActive = true ∧ t = s.raise .busy) ∨
    (s.txnActive = false ∧ t = s.mapNamed chm (Channel.startCal s.calSettle)) := by
  unfold execCalStart at h
  split at h
  · next hb => exact .inl ⟨hb, by cases h; rfl⟩
  · next hb => exact .inr ⟨by simpa using hb, by cases h; rfl⟩

theorem execRxStart_cases {chm : ChMask} {s t : State} (h : execRxStart chm s = .next t) :
    (s.txnActive = true ∧ t = s.raise .busy) ∨
    (s.txnActive = false ∧
      t = { (s.mapChans fun c k => if named chm c then k.openWindow s.margin else k.dropCal) with
        txnActive := true, txnMask := chm, done := false, aborted := false }) := by
  unfold execRxStart at h
  split at h
  · next hb => exact .inl ⟨hb, by cases h; rfl⟩
  · next hb => exact .inr ⟨by simpa using hb, by cases h; rfl⟩

theorem execRxAbort_cases {s t : State} (h : execRxAbort s = .next t) :
    t = { (s.mapChans fun _ k => if k.running then k.clearChannel else k) with
      txnActive := false, txnMask := 0
      aborted := s.aborted || (s.txnActive || anyChan fun c => (s.ch c).running) } := by
  cases h; rfl

theorem execEdgeLoad_cases {chm : ChMask} {x : Half} {s t : State} (h : execEdgeLoad chm x s = .next t) :
    ((∃ c, named chm c = true ∧ (s.ch c).quiet = false) ∧ t = s.raise .busy) ∨
    ((∀ c, named chm c = true → (s.ch c).quiet = true) ∧ t = s.mapNamed chm (Channel.recordEdge x)) := by
  unfold execEdgeLoad at h
  split at h
  · next hb =>
    obtain ⟨c, hc, hq⟩ := (anyNamed_eq_true _ _ _).mp hb
    exact .inl ⟨⟨c, hc, by simpa using hq⟩, by cases h; rfl⟩
  · next hb =>
    refine .inr ⟨fun c hc => ?_, by cases h; rfl⟩
    by_contra hx
    exact hb ((anyNamed_eq_true _ _ _).mpr ⟨c, hc, by simpa using hx⟩)

theorem execDecode_cases {chm : ChMask} {s t : State} (h : execDecode chm s = .next t) :
    ((∃ c, named chm c = true ∧ (s.ch c).quiet = false) ∧ t = s.raise .busy) ∨
    ((∀ c, named chm c = true → (s.ch c).quiet = true) ∧ t = s.mapNamed chm Channel.decodeRx) := by
  unfold execDecode at h
  split at h
  · next hb =>
    obtain ⟨c, hc, hq⟩ := (anyNamed_eq_true _ _ _).mp hb
    exact .inl ⟨⟨c, hc, by simpa using hq⟩, by cases h; rfl⟩
  · next hb =>
    refine .inr ⟨fun c hc => ?_, by cases h; rfl⟩
    by_contra hx
    exact hb ((anyNamed_eq_true _ _ _).mpr ⟨c, hc, by simpa using hx⟩)

/-- A word written to CMD is rejected, or it decodes and its command is executed. -/
theorem execWord_cases (w : Word) (s : State) :
    (∃ e, decode w = .error e ∧ execWord w s = .next (s.raise e)) ∨ (∃ i, decode w = .ok i ∧ execWord w s = exec i s) := by
  unfold execWord
  cases h : decode w with
  | error e => exact .inl ⟨e, rfl, rfl⟩
  | ok i => exact .inr ⟨i, rfl, rfl⟩

/-- A BusWrite is misaligned, or a command, or a register write. -/
theorem execBusWrite_cases (addr : Offset) (v : Word) (s : State) :
    (misaligned addr = true ∧ execBusWrite addr v s = .next (s.raise .misaligned)) ∨
    (misaligned addr = false ∧ regAt addr = .cmd ∧ execBusWrite addr v s = execWord v s) ∨
    (misaligned addr = false ∧ regAt addr ≠ .cmd ∧ execBusWrite addr v s = .next (s.writeReg v (regAt addr))) := by
  unfold execBusWrite
  cases hm : misaligned addr
  · by_cases hr : regAt addr = .cmd <;> simp [hr]
  · simp

/-- A configuration write is refused with BUSY, or takes effect (60_exceptions.md R205). -/
theorem configWrite_cases (upd : State → State) (s : State) :
    (s.busy = true ∧ s.configWrite upd = s.raise .busy) ∨ (s.busy = false ∧ s.configWrite upd = upd s) := by
  unfold State.configWrite
  cases s.busy <;> simp

/-- `misaligned` says that the offset is no multiple of 4 (20_memory.md R72). -/
theorem misaligned_eq_false (addr : Offset) : misaligned addr = false ↔ addr.toNat % 4 = 0 := by
  simp [misaligned, BitVec.toNat_eq]

/-- A step takes the oldest event, or there is none and nothing changes. -/
theorem step_cases (s : State) :
    (s.inputs = [] ∧ step s = .next s) ∨
    (∃ e rest, s.inputs = e :: rest ∧ step s = execEvent e { s with inputs := rest }) := by
  unfold step
  cases h : s.inputs with
  | nil => exact .inl ⟨rfl, rfl⟩
  | cons e rest => exact .inr ⟨e, rest, rfl, rfl⟩

/-- Delivering an event runs it on the state as it is. -/
theorem deliver_eq (e : Event) (s : State) : deliver e s = execEvent e s := rfl

/-- The step after `withFetchWord` runs the command word. -/
theorem step_withFetchWord (s : State) (nbits w : Nat) :
    step (s.withFetchWord nbits w) = execWord (BitVec.ofNat 32 (w % 2 ^ nbits)) s := by
  have hm : misaligned cmdOffset = false := by decide
  have hr : regAt cmdOffset = .cmd := by decide
  show execBusWrite cmdOffset (BitVec.ofNat 32 (w % 2 ^ nbits)) s = _
  simp [execBusWrite, hm, hr]

end Sys2Proof.Machine
end

