-- ==== Sys2Proof/Laws/PerInstr.lean ====
section
/-! SUPPORT. A fact about every command as a term, one lemma per constructor: its encoding carries its OP and zeros in the
two reserved fields (30_encoding.md R90). -/

namespace Sys2Proof.Laws.EncodedFields

open Sys2Proof

/-- OP, RSV_A and RSV_B of the encoding (30_encoding.md R90, R93). -/
def Statement (i : Instr) : Prop :=
  opField (encode i) = opcode i ∧ rsvAField (encode i) = 0 ∧ rsvBField (encode i) = 0

/-- One bit of a packed word, by the field it lies in. -/
theorem packFields_getLsbD (op : BitVec 4) (chm : ChMask) (imm : Half) (i : Nat) :
    (packFields op chm imm).getLsbD i =
      if i < 16 then imm.getLsbD i
      else if i < 24 then false
      else if i < 26 then chm.getLsbD (i - 24)
      else if i < 28 then false
      else op.getLsbD (i - 28) := by
  unfold packFields
  rw [BitVec.getLsbD_append, BitVec.getLsbD_append, BitVec.getLsbD_append, BitVec.getLsbD_append]
  split_ifs <;> first | rfl | omega | simp

/-- The five fields of a packed word (30_encoding.md R90). -/
theorem fields_of_packFields (op : BitVec 4) (chm : ChMask) (imm : Half) :
    opField (packFields op chm imm) = op ∧ rsvAField (packFields op chm imm) = 0 ∧
    rsvBField (packFields op chm imm) = 0 ∧ chmField (packFields op chm imm) = chm ∧
    immField (packFields op chm imm) = imm := by
  refine ⟨?_, ?_, ?_, ?_, ?_⟩ <;> apply BitVec.eq_of_getLsbD_eq <;> intro i hi <;>
    simp only [opField, rsvAField, rsvBField, chmField, immField, BitVec.getLsbD_extractLsb', packFields_getLsbD, hi] <;>
    split_ifs <;> first | omega | simp

/-- The reserved fields of every encoding are the packed word's. -/
theorem of_packFields {i : Instr} {chm : ChMask} {imm : Half} (h : encode i = packFields (opcode i) chm imm) :
    Statement i := by
  unfold Statement
  rw [h]
  exact ⟨(fields_of_packFields _ _ _).1, (fields_of_packFields _ _ _).2.1, (fields_of_packFields _ _ _).2.2.1⟩

theorem nop : Statement .nop := of_packFields rfl
theorem crcInit : Statement .crcInit := of_packFields rfl
theorem crcByte (b : Byte) : Statement (.crcByte b) := of_packFields rfl
theorem crcSet (v : Byte) : Statement (.crcSet v) := of_packFields rfl
theorem chReset (chm : ChMask) : Statement (.chReset chm) := of_packFields rfl
theorem calStart (chm : ChMask) : Statement (.calStart chm) := of_packFields rfl
theorem rxStart (chm : ChMask) : Statement (.rxStart chm) := of_packFields rfl
theorem rxAbort : Statement .rxAbort := of_packFields rfl
theorem edgeLoad (chm : ChMask) (t : Half) : Statement (.edgeLoad chm t) := of_packFields rfl
theorem decode (chm : ChMask) : Statement (.decode chm) := of_packFields rfl

end Sys2Proof.Laws.EncodedFields
end

