-- ==== Sys2Proof/Tests/Slice0.lean ====
section
/-! SUPPORT. Tests: words written out from 30_encoding.md R93, the WellFormed smoke, single steps with the results of
95_test_vectors.md, and a witness for the hypotheses of each statement. -/

namespace Sys2Proof.Tests

open Sys2Proof Sys2Proof.Machine Sys2Proof.Reference

/-! ### Decoding: one word per row, bit by bit from the encoding column of R93 -/

theorem test_decode_nop : decode 0b00000000000000000000000000000000 = .ok .nop := by decide
theorem test_decode_crcInit : decode 0b00010000000000000000000000000000 = .ok .crcInit := by decide
theorem test_decode_crcByte : decode 0b00100000000000000000000000010010 = .ok (.crcByte 0x12) := by decide
theorem test_decode_crcSet : decode 0b00110000000000000000000010101011 = .ok (.crcSet 0xAB) := by decide
theorem test_decode_chReset : decode 0b01000010000000000000000000000000 = .ok (.chReset 2) := by decide
theorem test_decode_calStart : decode 0b01010011000000000000000000000000 = .ok (.calStart 3) := by decide
theorem test_decode_rxStart : decode 0b01100001000000000000000000000000 = .ok (.rxStart 1) := by decide
theorem test_decode_rxAbort : decode 0b01110000000000000000000000000000 = .ok .rxAbort := by decide
theorem test_decode_edgeLoad : decode 0b10000010000000000000000011100110 = .ok (.edgeLoad 2 230) := by decide
theorem test_decode_decode : decode 0b10010001000000000000000000000000 = .ok (.decode 1) := by decide

/-- 95_test_vectors.md section 2.2: the rejected words and their codes. -/
theorem test_decode_rejects :
    decode 0x00000001 = .error .reservedField ∧ decode 0x11000000 = .error .reservedField ∧
    decode 0x2000FF00 = .error .reservedField ∧ decode 0x40010000 = .error .reservedField ∧
    decode 0x44000000 = .error .reservedField ∧ decode 0x41000001 = .error .reservedField ∧
    decode 0x71000000 = .error .reservedField ∧ decode 0x08000000 = .error .reservedField ∧
    decode 0x50000000 = .error .badMask ∧ decode 0x80000000 = .error .badMask ∧
    decode 0xA1000000 = .error .illegalOp ∧ decode 0xF0000000 = .error .illegalOp := by decide

theorem test_decodeTableWord : decodeTableWord 32 0x61000000 = some (.rxStart 1) ∧ decodeTableWord 8 0 = some .nop ∧
    decodeTableWord 32 0x60000000 = none := by decide

/-! ### WellFormed: each check refuses an ill-formed term -/

theorem test_illformed_refused :
    (Instr.chReset 0).wellFormed = false ∧ (Instr.calStart 0).wellFormed = false ∧ (Instr.rxStart 0).wellFormed = false ∧
    (Instr.edgeLoad 0 230).wellFormed = false ∧ (Instr.decode 0).wellFormed = false := by decide

/-! ### Single steps -/

/-- A test of the state a command leaves. -/
def after (i : Instr) (s : State) (p : State → Bool) : Bool :=
  match exec i s with
  | .next t => p t
  | _ => false

/-- A channel with the given edges recorded. -/
def withEdges (es : List Nat) : Channel := es.foldl (fun k t => k.recordEdge (BitVec.ofNat 16 t)) Channel.reset

/-- A waiting channel with threshold 1200 (95_test_vectors.md section 2.5). -/
def waiting : Channel := { Channel.reset with phase := .wait, endIdx := 1590, thresh := 1200 }

/-- A started channel whose start edge is at index 40. -/
def started : Channel :=
  { withEdges [40] with phase := .started, startIdx := 40, sampleIdx := 41, prev := true, endIdx := 1590, thresh := 1200 }

/-- A calibrating channel: 17 samples, sum 17000 (41_channel_control.md R132's example). -/
def calibrating : Channel := { Channel.reset with phase := .cal, calSum := 17000, calCnt := 17 }

/-- A transaction on channel 0. -/
def receiving : State := { State.reset with txnActive := true, txnMask := 1, ch0 := waiting }

/-- No transaction, channel 0 calibrating with MARGIN = 200. -/
def calState : State := { State.reset with margin := 200, ch0 := calibrating }

theorem test_nop : after .nop receiving (fun t => t == receiving) = true := by decide +kernel
/-- R114's example: CRC = 0x18, then CRC.INIT. -/
theorem test_crcInit : after .crcInit { State.reset with crc := 0x18 } (fun t => t.crc == 0xFF) = true := by decide +kernel
/-- R115's example: 0xFF, then 0x12, gives 0x55. -/
theorem test_crcByte : after (.crcByte 0x12) State.reset (fun t => t.crc == 0x55) = true := by decide +kernel
/-- V1, V2, V3 of 95_test_vectors.md. -/
theorem test_crc8 : crc8 [0x12, 0x03] = 0x18 ∧ crc8 [0x22, 0x03] = 0x0F ∧ crc8 [0x41] = 0xBB ∧
    verify8 [0x22, 0x03, 0x0F] = true ∧ verify8 [0x22, 0x03, 0x0E] = false := by decide +kernel
theorem test_crcSet : after (.crcSet 0xAB) State.reset (fun t => t.crc == 0xAB) = true := by decide +kernel
/-- R130's example: a done channel with edges becomes idle and keeps THRESH. -/
theorem test_chReset :
    after (.chReset 1) { State.reset with ch0 := { withEdges [1, 2] with phase := .done, thresh := 7 } }
      (fun t => t.ch0.phase == .idle && t.ch0.edgeCnt == 0 && t.ch0.edges[1] == 0 && t.ch0.thresh == 7) = true := by
  decide +kernel
/-- 95 section 2.4: CH.RESET of a transaction channel reads STATUS 0x00040145 afterwards. -/
theorem test_chReset_busy :
    after (.chReset 1) receiving (fun t => t.statusWord == 0x00040145 && t.ch0 == waiting) = true := by decide +kernel
/-- R131's example: CAL_SETTLE = 3. -/
theorem test_calStart :
    after (.calStart 3) { State.reset with calSettle := 3 }
      (fun t => t.ch0.phase == .cal && t.ch1.phase == .cal && t.ch1.settleLeft == 3 && t.statusWord == 0x60) = true := by
  decide +kernel
/-- R132's example: THRESH 1200, STATUS 0x141. -/
theorem test_rxStart :
    after (.rxStart 1) calState
      (fun t => t.ch0.thresh == 1200 && t.ch0.phase == .wait && t.ch0.endIdx == 1590 && t.statusWord == 0x141) = true := by
  decide +kernel
/-- P5: a calibration without samples, CH_STATUS 0x102. -/
theorem test_rxStart_no_samples :
    after (.rxStart 1) { State.reset with ch0 := { Channel.reset with phase := .cal, settleLeft := 10 } }
      (fun t => t.ch0.thresh == 0xFFFF && t.ch0.statusWord == 0x102) = true := by decide +kernel
/-- R134's example: the started channel is idle, the done one unchanged. -/
theorem test_rxAbort :
    after .rxAbort
      { State.reset with txnActive := true, txnMask := 3, ch0 := started, ch1 := { withEdges [5] with phase := .done } }
      (fun t => t.ch0.phase == .idle && t.ch1.edgeCnt == 1 && t.ch1.phase == .done && t.statusWord == 0x8) = true := by
  decide +kernel
theorem test_rxAbort_nothing : after .rxAbort State.reset (fun t => t == State.reset) = true := by decide +kernel
/-- R189's example: 230 on channel 1. -/
theorem test_edgeLoad :
    after (.edgeLoad 2 230) State.reset (fun t => t.ch1.edges[0] == 230 && t.ch1.edgeCnt == 1 && t.ch0.edgeCnt == 0) = true := by
  decide +kernel
/-- P2: RXB word 0, NBITS and CH_STATUS of 22 03 0F. -/
theorem test_decode :
    after (.decode 1) { State.reset with ch0 := withEdges [0, 10, 20, 30, 60, 70, 90, 120, 180, 230] }
      (fun t => t.ch0.rxbWord 0 == 0x000F0322 && t.ch0.nbits == 20 && t.ch0.statusWord == 0x10) = true := by
  decide +kernel
/-- T2: the first sample above 1200 is the start edge. -/
theorem test_tick_start :
    ({ waiting with sampleIdx := 1 } : Channel).tick true 1201 =
      { waiting with
        phase := .started, startIdx := 1, prev := true, edges := (Vector.replicate 160 0).setIfInBounds 0 1, edgeCnt := 1,
        sampleIdx := 2 } := by decide +kernel
/-- T1: a sample equal to THRESH is low. -/
theorem test_tick_equal : (waiting.tick true 1200).phase = .wait ∧ (waiting.tick true 1200).idleCnt = 1 := by decide +kernel
/-- V4: the header 0x22 sets END_IDX = 420. -/
theorem test_header :
    (withEdges [40, 50, 60, 70, 100, 110, 130]).headerDecode.hdr = 0x22 ∧
    (withEdges [40, 50, 60, 70, 100, 110, 130]).headerDecode.endIdx = 420 := by decide +kernel
/-- 95 section 2.3: a misaligned read, the identification and the parameters. -/
theorem test_bus :
    (State.reset.busRead 0x012).statusWord = 0x00050004 ∧ (State.reset.busRead 0x000).rdata = 0x43524338 ∧
    (State.reset.busRead 0x020).rdata = 0x02A0100A ∧ (State.reset.busRead 0x044).rdata = 0x0000FFFF := by decide +kernel

/-! ### Witnesses: the hypotheses of the statements are met -/

theorem witness_DecodeEncodeRoundTrip : (Instr.edgeLoad 3 0xFFFF).wellFormed = true := by decide

theorem witness_AcceptedWordIsItsEncoding : decode 0x8300FFFF = .ok (.edgeLoad 3 0xFFFF) := by decide

theorem witness_DecoderFollowsOpcodeMap :
    (∃ r ∈ opcodeMap, r.reads 0x9300_0000) ∧ ∀ r ∈ opcodeMap, ¬ r.reads 0x40000000 := by
  refine ⟨⟨⟨0x90000000, 0xFCFFFFFF, true, fun w => .decode (w.extractLsb' 24 2)⟩, by simp [opcodeMap],
    by decide, fun _ => by decide⟩, fun r hr => ?_⟩
  simp only [opcodeMap, List.mem_cons, List.not_mem_nil, or_false] at hr
  rcases hr with rfl | rfl | rfl | rfl | rfl | rfl | rfl | rfl | rfl | rfl <;>
    (unfold OpcodeRow.reads; decide)

theorem witness_CommandWordCheckedInOrder :
    firstFailing 0xA0000000 = some .illegalOp ∧ firstFailing 0x08000000 = some .reservedField ∧
    firstFailing 0x00000001 = some .reservedField ∧ firstFailing 0x20000100 = some .reservedField ∧
    firstFailing 0x41000001 = some .reservedField ∧ firstFailing 0x90000000 = some .badMask ∧
    firstFailing 0x93000000 = none := by decide

/-- A state whose next event writes RX.START ch0 to CMD. -/
def aboutToReceive : State := { calState with inputs := [.busWrite 0x00C 0x61000000] }

theorem witness_StepRunsDecodedCommand :
    aboutToReceive.inputs = .busWrite 0x00C 0x61000000 :: [] ∧ decode 0x61000000 = .ok (.rxStart 1) ∧
    (Instr.rxStart 1).wellFormed = true := by decide +kernel

theorem witness_StepConsumesOneEvent : step State.reset = .next State.reset := rfl

theorem witness_CommandRejectsPrecisely :
    exec (.rxStart 1) receiving = .next { receiving with err := true, lastErr := .busy } ∧
    exec .nop State.reset = .next State.reset := ⟨rfl, rfl⟩

theorem witness_BusyRejectionsLeaveState :
    namedInTransaction 1 receiving ∧ receiving.txnActive = true ∧ ¬ namedAtRest 1 receiving ∧ ¬ namedAtRest 3 calState := by
  refine ⟨⟨rfl, .ch0, rfl, rfl⟩, rfl, ?_, ?_⟩ <;> intro h <;> have := h .ch0 rfl <;> revert this <;> decide +kernel

theorem witness_ChangedOctetIsDetected : (0xBB : Byte) ≠ 0xBA ∧ verify8 ([0x41] ++ 0xBB :: []) = true := by decide +kernel

theorem witness_CrcUnitIsIndependent :
    Instr.rxStart 1 ∉ [Instr.nop, .crcInit] ∧ (∀ b, Instr.rxStart 1 ≠ .crcByte b) ∧ (∀ v, Instr.rxStart 1 ≠ .crcSet v) ∧
    exec (.rxStart 1) receiving = .next { receiving with err := true, lastErr := .busy } ∧
    (0x3FFFFFFF : Word).toNat / 2 ^ 28 < 4 ∧ decode 0x3FFFFFFF = .error .reservedField :=
  ⟨by decide, by simp, by simp, rfl, by decide, by decide⟩

theorem witness_ChResetClearsNamedChannels : ¬ namedInTransaction 2 receiving ∧ ¬ namedInTransaction 1 calState := by
  refine ⟨?_, fun h => by simp [calState, State.reset, namedInTransaction] at h⟩
  rintro ⟨-, c, h2, h1⟩
  cases c <;> revert h1 h2 <;> decide

theorem witness_CalStartBeginsCalibration : calState.txnActive = false ∧ State.reset.txnActive = false := ⟨rfl, rfl⟩

theorem witness_RxStartOpensReceiveWindow :
    calState.txnActive = false ∧ (calState.ch .ch0).phase = .cal ∧ (calState.ch .ch0).calCnt ≠ 0 ∧
    (calState.ch .ch1).phase ≠ .cal ∧ named 2 .ch0 = false ∧ named 1 .ch1 = false ∧
    ({ Channel.reset with phase := .cal } : Channel).calCnt = 0 := by decide

theorem witness_RxAbortCancelsEverything :
    inProgress (receiving.ch .ch0).phase ∧ ¬ inProgress (receiving.ch .ch1).phase ∧ inProgress (calState.ch .ch0).phase := by
  refine ⟨.inr (.inl rfl), ?_, .inl rfl⟩
  rintro (h | h | h) <;> revert h <;> decide

/-- A done channel one entry short of full, and a full one. -/
def nearlyFull : Channel := { Channel.reset with phase := .done, edgeCnt := 159 }
def full : Channel := { Channel.reset with phase := .done, edgeCnt := 160 }

theorem witness_EdgeLoadAppendsTimestamp :
    namedAtRest 3 { State.reset with ch0 := nearlyFull, ch1 := full } ∧ named 3 .ch0 = true ∧ named 3 .ch1 = true ∧
    nearlyFull.edgeCnt.toNat < 160 ∧ 160 ≤ full.edgeCnt.toNat ∧ named 1 .ch1 = false := by
  refine ⟨fun c _ => ?_, rfl, rfl, by decide, by decide, rfl⟩
  cases c <;> exact .inr rfl

theorem witness_DecodeFillsResultRegisters :
    namedAtRest 2 calState ∧ namedAtRest 3 { State.reset with ch0 := full } := by
  refine ⟨fun c h => ?_, fun c _ => ?_⟩ <;> cases c
  · exact absurd h (by decide)
  · exact .inl rfl
  · exact .inr rfl
  · exact .inl rfl

theorem witness_GapRoundsHalfUp : gapBits 5 = 1 ∧ gapBits 14 = 1 ∧ gapBits 4 = 0 ∧ gapBits 95 = 10 ∧ gapBits 94 = 9 ∧
    gapBits (50 - 100) = 6549 := by decide +kernel

theorem witness_ProcessBitsPadsToCapacity :
    (processBits [0, 100] 128).err = .missingStart ∧ (processBits [0, 90] 128).err = .none ∧
    (processBits [0, 90] 128).nb ≤ 127 ∧ (processBits [5] 0).err = .none := by decide +kernel

theorem witness_FirstGapDecodes :
    gapBits (4 - 0) = 0 ∧ gapBits (5 - 0) = 1 ∧ gapBits (94 - 0) = 9 ∧ gapBits (95 - 0) = 10 := by decide +kernel

theorem witness_ReferenceWaveformDecodes :
    (withEdges [40, 60, 110, 120, 130, 160, 170, 200, 210, 220]).edgeList =
      (frameEdges 40 [0x41, 0xBB] false).map (BitVec.ofNat 16) := by decide +kernel

theorem witness_DisplacedWaveformDecodes :
    List.Forall₂ (fun a b => a ≤ b + 2 ∧ b ≤ a + 2) [40, 62, 108, 122, 128, 162, 168, 202, 208, 222]
      (frameEdges 40 [0x41, 0xBB] false) ∧
    (withEdges [40, 62, 108, 122, 128, 162, 168, 202, 208, 222]).edgeList =
      [40, 62, 108, 122, 128, 162, 168, 202, 208, 222].map (BitVec.ofNat 16) := by decide +kernel

theorem witness_PolarityIsStrict : (1200 : Half) = waiting.thresh ∧ Channel.reset.thresh = 0xFFFF := by decide

theorem witness_CalibrationTickAccumulates :
    calibrating.phase = .cal ∧ calibrating.settleLeft = 0 ∧ calibrating.calCnt ≠ 0xFFFF ∧
    calibrating.calSum.toNat ≤ calibrating.calCnt.toNat * 65535 ∧
    ({ calibrating with settleLeft := 1 } : Channel).settleLeft ≠ 0 ∧
    ({ calibrating with calCnt := 0xFFFF } : Channel).calCnt = 0xFFFF := by decide

/-- The start edge, an idle tick, and each of them in the last tick of the window. -/
theorem witness_WaitTickFindsStartEdge :
    waiting.phase = .wait ∧ waiting.edgeCnt = 0 ∧ waiting.thresh < 1201 ∧ ¬ waiting.thresh < 1200 ∧
    (waiting.tick true 1201).phase = .started ∧ (waiting.tick true 1200).phase = .wait ∧
    ({ waiting with sampleIdx := 1589 }.tick true 1201).valid = true ∧
    ({ waiting with sampleIdx := 1589 }.tick true 1200).phase = .done := by decide +kernel

/-- The started channel at the timestamp of its header pass, with one edge, its line still high. -/
def atHeader : Channel := { started with sampleIdx := 140 }

/-- R157 sees this TICK's edge: with the falling edge at 140 the gap rounds to 10 bits, a missing start bit; without it the
level fills the octet. -/
theorem test_header_sees_edge_of_its_tick :
    (atHeader.tick true 1000).hdrRead = true ∧ (atHeader.tick true 1000).hdrOk = false ∧
    (atHeader.tick true 3000).hdrOk = true ∧ (atHeader.tick true 3000).hdr = 0xFF := by decide +kernel

theorem witness_StartedTickRecordsCrossings :
    started.phase = .started ∧ started.edgeCnt.toNat < 160 ∧ started.prev ≠ decide (started.thresh < 1200) ∧
    started.prev = decide (started.thresh < 1201) ∧ started.hdrRead = false ∧
    started.sampleIdx.toNat ≠ started.startIdx.toNat + 100 ∧ (started.tick true 1000).phase ≠ .done ∧
    atHeader.hdrRead = false ∧ atHeader.sampleIdx.toNat = atHeader.startIdx.toNat + 100 ∧
    atHeader.prev ≠ decide (atHeader.thresh < 1000) ∧
    ({ started with sampleIdx := 1589 }.tick true 1000).phase = .done := by decide +kernel

/-- A started channel with a full buffer: a crossing and none, in the last tick of the window too. -/
theorem witness_FullBufferDropsEdge :
    ({ started with edgeCnt := 160 } : Channel).phase = .started ∧ ({ started with edgeCnt := 160 } : Channel).edgeCnt = 160 ∧
    started.prev ≠ decide (started.thresh < 1000) ∧ started.prev = decide (started.thresh < 1201) ∧
    ({ started with edgeCnt := 160, sampleIdx := 1589 }.tick true 1000).phase = .done := by decide +kernel

theorem witness_EndCheckFinalizesAtEndIdx :
    ({ started with sampleIdx := 1590 } : Channel).endIdx ≤ 1590 ∧ started.sampleIdx < started.endIdx := by decide +kernel

theorem witness_SilentChannelEndsInvalid :
    receiving.inTxn .ch0 = true ∧ receiving.replyTimeout = 0 ∧ (receiving.ch .ch0).phase = .wait ∧
    (receiving.ch .ch0).sampleIdx = 0 ∧ (receiving.ch .ch0).edgeCnt = 0 ∧ (receiving.ch .ch0).endIdx = 1590 ∧
    (receiving.ch .ch0).hdrOk = false ∧ (List.replicate 1590 ((1200 : Half), (0 : Half))).length = 1590 ∧
    ∀ x ∈ List.replicate 1590 ((1200 : Half), (0 : Half)), ¬ (receiving.ch .ch0).thresh < sampleOf x.1 x.2 .ch0 := by
  refine ⟨rfl, rfl, rfl, rfl, rfl, rfl, rfl, List.length_replicate, fun x h => ?_⟩
  rw [List.eq_of_mem_replicate h]
  decide

theorem witness_HeaderDecodeSetsWindow :
    (decodeBits (withEdges [0, 100]).edgeList 8).2.2.1 = true ∧ (decodeBits started.edgeList 8).2.2.1 = false := by
  decide +kernel

/-- A transaction on both channels, both idle for 51 ticks with REPLY_TIMEOUT = 50, one of them done. -/
def timingOut : State :=
  { State.reset with
    txnActive := true, txnMask := 3, replyTimeout := 50, ch0 := { waiting with idleCnt := 51 }
    ch1 := { Channel.reset with phase := .done, idleCnt := 51 } }

theorem witness_CompletionEndsTransaction :
    (timingOut.txnActive = true ∧ timingOut.replyTimeout ≠ 0 ∧
      ∀ c, named timingOut.txnMask c = true → timingOut.replyTimeout < (timingOut.ch c).idleCnt) ∧
    (∀ c, named (2 : ChMask) c = true → ({ timingOut with txnMask := 2 } : State).ch c = timingOut.ch .ch1) ∧
    (timingOut.ch .ch1).phase = .done ∧ receiving.replyTimeout = 0 ∧ (receiving.ch .ch0).phase ≠ .done := by
  refine ⟨⟨rfl, by decide, fun c _ => ?_⟩, fun c h => ?_, rfl, rfl, by decide⟩
  · cases c <;> decide
  · cases c
    · exact absurd h (by decide)
    · rfl

theorem witness_TickFrame : receiving.inTxn .ch1 = false := by decide

theorem witness_QuietChannelIgnoresSamples :
    (receiving.ch .ch1).phase = .idle ∧ (timingOut.ch .ch1).phase = .done ∧ timingOut.txnActive = true ∧
    named timingOut.txnMask .ch1 = true ∧ ¬ (receiving.txnActive = true ∧ named receiving.txnMask .ch1 = true) := by decide

theorem witness_UncalibratedChannelNeverStarts :
    (State.reset.ch .ch0).thresh = 0xFFFF ∧ (State.reset.ch .ch0).phase ≠ .started := by decide

/-- A waiting channel without edges has the invariants. -/
theorem waiting_inv : waiting.Inv where
  edge_cnt := by decide
  edges_clear := by decide +kernel
  wait_empty := fun _ => rfl
  started_edge := fun h => absurd h (by decide)
  start_before := fun h => absurd h (by decide)
  window := fun _ => by decide
  results := by decide
  cal_sum := by decide

theorem idle_inv : Channel.reset.Inv where
  edge_cnt := by decide
  edges_clear := by decide +kernel
  wait_empty := fun h => absurd h (by decide)
  started_edge := fun h => absurd h (by decide)
  start_before := fun h => absurd h (by decide)
  window := fun h => absurd h (by decide)
  results := by decide
  cal_sum := by decide

theorem receiving_inv : receiving.Inv where
  chans := fun c => by cases c <;> first | exact waiting_inv | exact idle_inv
  receiving := fun c h => by cases c <;> first | exact ⟨rfl, rfl⟩ | exact absurd h (by decide)
  mask_idle := fun h => absurd h (by decide)
  mask_active := fun _ => by decide
  members := fun c _ h => by cases c <;> first | exact .inl rfl | exact absurd h (by decide)
  no_cal := fun c _ => by cases c <;> decide

theorem witness_TransactionEndsWithin1590Ticks :
    receiving.Inv ∧ receiving.txnActive = true ∧ 1590 ≤ (List.replicate 1590 ((0 : Half), (0 : Half))).length :=
  ⟨receiving_inv, rfl, by rw [List.length_replicate]⟩

/-- The samples of 41 BB with the start edge at t0 on channel 0. -/
def ackSamples (t0 : Nat) : List (Half × Half) :=
  (List.range 330).map fun n => (if frameLevelAt t0 [0x41, 0xBB] false n then 3000 else 1000, 0)

theorem witness_PromptFrameIsCaptured :
    receiving.inTxn .ch0 = true ∧ receiving.replyTimeout = 0 ∧ (receiving.ch .ch0).phase = .wait ∧
    (receiving.ch .ch0).sampleIdx = 0 ∧ (receiving.ch .ch0).edgeCnt = 0 ∧ (receiving.ch .ch0).endIdx = 1590 ∧
    (receiving.ch .ch0).hdrRead = false ∧ (receiving.ch .ch0).hdrOk = false ∧
    ([0xBB] : List Byte).length + 1 = declaredOctets 0x41 ∧
    (ackSamples 159).length = (declaredOctets 0x41 * 9 + 15) * 10 ∧
    ∀ n x, (ackSamples 159)[n]? = some x →
      ((receiving.ch .ch0).thresh < sampleOf x.1 x.2 .ch0 ↔ frameLevelAt 159 [0x41, 0xBB] false n = true) := by
  refine ⟨rfl, rfl, rfl, rfl, rfl, rfl, rfl, rfl, by decide, ?_, fun n x h => ?_⟩
  · unfold ackSamples
    rw [List.length_map, List.length_range]
    decide
  have ht : (receiving.ch .ch0).thresh = 1200 := rfl
  simp only [ackSamples, List.getElem?_map, Option.map_eq_some_iff] at h
  obtain ⟨m, hm, rfl⟩ := h
  obtain rfl : n = m := by
    rw [List.getElem?_eq_some_iff] at hm
    obtain ⟨_, hm⟩ := hm
    simpa using hm
  rw [ht]
  cases frameLevelAt 159 [0x41, 0xBB] false n <;> decide

theorem witness_AlignedReadHasNoSideEffect :
    (0xFFC : Offset).toNat % 4 = 0 ∧ reservedOffset 0xFFC ∧ reservedOffset 0x024 ∧ ¬ reservedOffset 0x020 ∧
    ¬ reservedOffset 0x040 ∧ reservedOffset 0x06C ∧ ¬ reservedOffset 0x100 ∧ reservedOffset 0x680 ∧ ¬ reservedOffset 0xA7C := by
  unfold reservedOffset
  refine ⟨by decide, ?_, ?_, ?_, ?_, ?_, ?_, ?_, ?_⟩ <;> simp

theorem witness_MisalignedAccessIsRejected : (0x012 : Offset).toNat % 4 ≠ 0 ∧ (0xFFF : Offset).toNat % 4 ≠ 0 := by decide

theorem witness_BufferWordReads :
    3 < 4 ∧ 159 < 160 ∧ 158 < nearlyFull.edgeCnt.toNat ∧ nearlyFull.edgeCnt.toNat ≤ 159 := by decide

theorem witness_ConfigurationWritesNeedIdle :
    busyNow receiving ∧ busyNow calState ∧ ¬ busyNow State.reset ∧ (Event.tick 0 0) ≠ .reset ∧
    deliver (.busWrite 0x01C 50) receiving = .next { receiving with err := true, lastErr := .busy } := by
  refine ⟨.inl rfl, .inr ⟨.ch0, rfl⟩, ?_, by decide, rfl⟩
  rintro (h | ⟨c, h⟩)
  · exact absurd h (by decide)
  · cases c <;> exact absurd h (by decide)

theorem witness_ReadOnlyWritesAreIgnored :
    (0x010 : Offset).toNat % 4 = 0 ∧
    (0x010 : Offset) ∉ ([0x004, 0x008, 0x00C, 0x014, 0x018, 0x01C, 0x044, 0x084] : List Offset) := by decide

theorem witness_InterruptLevelAndAcknowledge :
    calState.txnActive = false ∧ (∃ t, exec (.rxStart 1) calState = .next t) ∧
    (∃ t, deliver (.busRead 0x008) receiving = .next t) ∧ ∃ t, exec .rxAbort receiving = .next t :=
  ⟨rfl, ⟨_, rfl⟩, ⟨_, rfl⟩, ⟨_, rfl⟩⟩

/-- One change of PHASE of each kind: by RX.ABORT, CAL.START, RX.START, the start edge, and the end of the window. -/
theorem witness_PhaseChangesOnlyAsListed :
    receiving.Inv ∧ (∃ t, deliver (cmdWrite 0x70000000) receiving = .next t ∧ (t.ch .ch0).phase ≠ (receiving.ch .ch0).phase) ∧
    (∃ t, deliver (cmdWrite 0x52000000) State.reset = .next t ∧ (t.ch .ch1).phase = .cal) ∧
    (∃ t, deliver (cmdWrite 0x61000000) State.reset = .next t ∧ (t.ch .ch0).phase = .wait) ∧
    (∃ t, deliver (.tick 1201 0) receiving = .next t ∧ (t.ch .ch0).phase = .started) ∧
    (∃ t, deliver (.tick 0 0) timingOut = .next t ∧ (t.ch .ch0).phase = .done) := by
  refine ⟨receiving_inv, ⟨_, rfl, ?_⟩, ⟨_, rfl, ?_⟩, ⟨_, rfl, ?_⟩, ⟨_, rfl, ?_⟩, ⟨_, rfl, ?_⟩⟩ <;> decide +kernel

theorem witness_StepKeepsInvariants : receiving.Inv ∧ step receiving = .next receiving := ⟨receiving_inv, rfl⟩

end Sys2Proof.Tests
end

section
/-! The reset event (10_state.md R51, 70_reset_and_hazards.md R230): its next state, the channels and the derived bits of
that state. -/

namespace Sys2Proof.Machine

open Sys2Proof

/-- The reset event completes in every state, whatever CC8 was doing (R230). -/
theorem deliver_reset (s : State) : deliver .reset s = .next s.resetEvent := by
  rw [deliver_eq]
  rfl

/-- Both channels are as after reset (R51). -/
@[simp] theorem State.resetEvent_ch (s : State) (c : Chan) : s.resetEvent.ch c = Channel.reset := by
  cases c <;> rfl

/-- The reset value of CRC is CRC_INIT, which is not 0, so CRC_ZERO reads 0 (R28). -/
theorem State.resetEvent_crcZero (s : State) : s.resetEvent.crcZero = false := by
  have hcrc : State.reset.crc ≠ 0 := by decide
  simpa [State.crcZero] using hcrc

/-- No channel calibrates after reset: both are IDLE (R28, R35). -/
theorem State.resetEvent_calActive (s : State) : s.resetEvent.calActive = false := by
  have hidle : Channel.reset.phase ≠ .cal := by decide
  rw [Bool.eq_false_iff, Ne, calActive_eq_true]
  rintro ⟨c, hcal⟩
  rw [State.resetEvent_ch] at hcal
  exact hidle hcal

/-- With no transaction and no calibration CC8 is not busy (R28). -/
theorem State.resetEvent_busy (s : State) : s.resetEvent.busy = false := by
  have htxn : State.reset.txnActive = false := rfl
  simp [State.busy, State.resetEvent_calActive, htxn]

/-- Neither cause of an interrupt stands after reset, DONE and ERR being 0 (60_exceptions.md R207). -/
theorem State.resetEvent_irq (s : State) : s.resetEvent.irq = false := by
  have hdone : State.reset.done = false := rfl
  have herr : State.reset.err = false := rfl
  simp [State.irq, hdone, herr]

/-- Settles O54: the reset event answers `State.resetEvent`, whose fields are those of R51 by definition. -/
theorem resetEventSetsEveryField : Obligations.ResetEventSetsEveryField := by
  unfold Obligations.ResetEventSetsEveryField
  intro s
  refine ⟨s.resetEvent, deliver_reset s, ?globals, ?channels, ?resetFields, s.resetEvent_crcZero,
    s.resetEvent_calActive, s.resetEvent_busy, s.resetEvent_irq⟩
  case globals => rfl
  case channels => exact s.resetEvent_ch
  case resetFields => rfl

end Sys2Proof.Machine
end

section
/-! Bus accesses at an offset that is no multiple of 4 (20_memory.md R72): what the read and the write make of any state. -/

namespace Sys2Proof.Machine

open Sys2Proof

/-- The model tests the two low bits of the offset; R72 speaks of its remainder by 4. -/
theorem misaligned_eq_true (addr : Offset) : misaligned addr = true ↔ addr.toNat % 4 ≠ 0 := by
  rw [Ne, ← misaligned_eq_false, Bool.not_eq_false]

/-- A BusRead is misaligned and returns 0, or returns the register at its offset (R72, R75). -/
theorem busRead_cases (addr : Offset) (s : State) :
    (misaligned addr = true ∧ s.busRead addr = { s.raise .misaligned with rdata := 0 }) ∨
    (misaligned addr = false ∧ s.busRead addr = { s with rdata := s.readReg (regAt addr) }) := by
  unfold State.busRead
  cases misaligned addr <;> simp

theorem deliver_busRead (addr : Offset) (s : State) : deliver (.busRead addr) s = .next (s.busRead addr) := by
  rw [deliver_eq]
  rfl

theorem deliver_busWrite (addr : Offset) (v : Word) (s : State) :
    deliver (.busWrite addr v) s = execBusWrite addr v s := by
  rw [deliver_eq]
  rfl

theorem busRead_of_misaligned {addr : Offset} (s : State) (h : misaligned addr = true) :
    s.busRead addr = { s.raise .misaligned with rdata := 0 } := by
  obtain ⟨-, hread⟩ | ⟨haligned, -⟩ := busRead_cases addr s
  · exact hread
  · simp [h] at haligned

theorem execBusWrite_of_misaligned {addr : Offset} (v : Word) (s : State) (h : misaligned addr = true) :
    execBusWrite addr v s = .next (s.raise .misaligned) := by
  obtain ⟨-, hwrite⟩ | ⟨haligned, -, -⟩ | ⟨haligned, -, -⟩ := execBusWrite_cases addr v s
  · exact hwrite
  · simp [h] at haligned
  · simp [h] at haligned

/-- Settles O42: both accesses answer `State.raise`, the read with `rdata` at 0, before the register map is consulted. -/
theorem misalignedAccessIsRejected : Obligations.MisalignedAccessIsRejected := by
  unfold Obligations.MisalignedAccessIsRejected
  intro addr v s haddr
  have hmis : misaligned addr = true := (misaligned_eq_true addr).mpr haddr
  refine ⟨?read, ?write, ?code⟩
  case read => rw [deliver_busRead, busRead_of_misaligned s hmis]; rfl
  case write => rw [deliver_busWrite, execBusWrite_of_misaligned v s hmis]; rfl
  case code => rfl

end Sys2Proof.Machine
end

section
/-! The opcode map (30_encoding.md R93): a masked comparison is a comparison of each field, so a row of the map reads
exactly the words that carry its OP and pass the checks of 60_exceptions.md R203. -/

namespace Sys2Proof.Reference

open Sys2Proof

/-! ### A command word and its fields (30_encoding.md R90) -/

/-- The five fields cover the word. -/
theorem append_fields (w : Word) :
    opField w ++ rsvAField w ++ chmField w ++ rsvBField w ++ immField w = w := by
  unfold opField rsvAField chmField rsvBField immField
  iterate 4 rw [BitVec.extractLsb'_append_extractLsb'_eq_extractLsb' (by rfl)]
  exact BitVec.extractLsb'_eq_self

/-- Two words are equal when their fields are. -/
theorem word_ext_fields {v w : Word} (hop : opField v = opField w) (hrsvA : rsvAField v = rsvAField w)
    (hchm : chmField v = chmField w) (hrsvB : rsvBField v = rsvBField w) (himm : immField v = immField w) : v = w := by
  rw [← append_fields v, ← append_fields w, hop, hrsvA, hchm, hrsvB, himm]

/-- A masked word is compared field by field. -/
theorem and_eq_iff_fields (w m p : Word) :
    w &&& m = p ↔
      opField w &&& opField m = opField p ∧ rsvAField w &&& rsvAField m = rsvAField p ∧
      chmField w &&& chmField m = chmField p ∧ rsvBField w &&& rsvBField m = rsvBField p ∧
      immField w &&& immField m = immField p := by
  constructor
  · rintro rfl
    simp only [opField, rsvAField, chmField, rsvBField, immField, BitVec.extractLsb'_and, and_self]
  · rintro ⟨hop, hrsvA, hchm, hrsvB, himm⟩
    apply word_ext_fields <;>
      simpa only [opField, rsvAField, chmField, rsvBField, immField, BitVec.extractLsb'_and]

theorem opField_toNat (w : Word) : (opField w).toNat = w.toNat / 2 ^ 28 := by
  have hw := w.isLt
  rw [opField, BitVec.extractLsb'_toNat, Nat.shiftRight_eq_div_pow]
  omega

theorem rsvAField_toNat (w : Word) : (rsvAField w).toNat = w.toNat / 2 ^ 26 % 4 := by
  rw [rsvAField, BitVec.extractLsb'_toNat, Nat.shiftRight_eq_div_pow]

theorem chmField_toNat (w : Word) : (chmField w).toNat = w.toNat / 2 ^ 24 % 4 := by
  rw [chmField, BitVec.extractLsb'_toNat, Nat.shiftRight_eq_div_pow]

theorem rsvBField_toNat (w : Word) : (rsvBField w).toNat = w.toNat / 2 ^ 16 % 256 := by
  rw [rsvBField, BitVec.extractLsb'_toNat, Nat.shiftRight_eq_div_pow]

theorem immField_toNat (w : Word) : (immField w).toNat = w.toNat % 2 ^ 16 := by
  rw [immField, BitVec.extractLsb'_toNat, Nat.shiftRight_zero]

theorem immHigh_toNat (imm : Half) : (immHigh imm).toNat = imm.toNat / 256 := by
  have himm := imm.isLt
  rw [immHigh, BitVec.extractLsb'_toNat, Nat.shiftRight_eq_div_pow]
  omega

/-! ### The checks of a command word (60_exceptions.md R203) -/

/-- The model's checks are those of R203 read over numbers. -/
theorem checkCmd_eq_firstFailing (w : Word) : checkCmd w = firstFailing w := by
  simp only [checkCmd, firstFailing, ← BitVec.toNat_inj, BitVec.le_def, ne_eq, opField_toNat, rsvAField_toNat,
    chmField_toNat, rsvBField_toNat, immField_toNat, immHigh_toNat, BitVec.toNat_ofNat, BitVec.ofNat_eq_ofNat,
    List.mem_cons, List.not_mem_nil, or_false]

/-- A word that fails a check is rejected with its code. -/
theorem decode_of_checkCmd_some {w : Word} {e : ErrCode} (h : checkCmd w = some e) : decode w = .error e := by
  simp only [decode, h]

/-- A word that passes the checks is the command its OP selects. -/
theorem decode_of_checkCmd_none {w : Word} {i : Instr} (h : checkCmd w = none)
    (hi : instrOf (opField w) (chmField w) (immField w) = some i) : decode w = .ok i := by
  simp only [decode, h, hi]

/-- One check of the chain: the word passes it and those after it. -/
theorem failing_eq_none_iff (fails : Prop) [Decidable fails] (e : ErrCode) (rest : Option ErrCode) :
    (if fails then some e else rest) = none ↔ ¬ fails ∧ rest = none := by
  by_cases h : fails <;> simp [h]

/-- A word passes when no check of R203 fails. -/
theorem checkCmd_eq_none_iff (w : Word) :
    checkCmd w = none ↔
      ¬ 0xA#4 ≤ opField w ∧ ¬ (rsvAField w ≠ 0 ∨ rsvBField w ≠ 0) ∧
      ¬ ((opField w = 0x0#4 ∨ opField w = 0x1#4 ∨ opField w = 0x7#4) ∧ (chmField w ≠ 0 ∨ immField w ≠ 0)) ∧
      ¬ ((opField w = 0x2#4 ∨ opField w = 0x3#4) ∧ (chmField w ≠ 0 ∨ immHigh (immField w) ≠ 0)) ∧
      ¬ ((opField w = 0x4#4 ∨ opField w = 0x5#4 ∨ opField w = 0x6#4 ∨ opField w = 0x9#4) ∧ immField w ≠ 0) ∧
      ¬ ((opField w = 0x4#4 ∨ opField w = 0x5#4 ∨ opField w = 0x6#4 ∨ opField w = 0x8#4 ∨ opField w = 0x9#4) ∧
        chmField w = 0) := by
  simp only [checkCmd, failing_eq_none_iff, and_true]

/-- An accepted word has no reserved OP. -/
theorem opField_lt_of_checkCmd_none {w : Word} (h : checkCmd w = none) : opField w < 0xA#4 := by
  obtain ⟨hop, -⟩ := (checkCmd_eq_none_iff w).mp h
  exact BitVec.not_le.mp hop

/-- The commands without operands: CHM and IMM are 0 (R203). -/
theorem checkCmd_eq_none_of_plain {w : Word} (hop : opField w = 0x0#4 ∨ opField w = 0x1#4 ∨ opField w = 0x7#4) :
    checkCmd w = none ↔ rsvAField w = 0 ∧ chmField w = 0 ∧ rsvBField w = 0 ∧ immField w = 0 := by
  rw [checkCmd_eq_none_iff]
  rcases hop with hop | hop | hop <;> simp [hop] <;> tauto

/-- The byte commands: IMM[7:0] is free (R92). -/
theorem checkCmd_eq_none_of_byte {w : Word} (hop : opField w = 0x2#4 ∨ opField w = 0x3#4) :
    checkCmd w = none ↔ rsvAField w = 0 ∧ chmField w = 0 ∧ rsvBField w = 0 ∧ immHigh (immField w) = 0 := by
  rw [checkCmd_eq_none_iff]
  rcases hop with hop | hop <;> simp [hop] <;> tauto

/-- The channel commands without IMM: CHM is free but not 0 (R91). -/
theorem checkCmd_eq_none_of_channel {w : Word}
    (hop : opField w = 0x4#4 ∨ opField w = 0x5#4 ∨ opField w = 0x6#4 ∨ opField w = 0x9#4) :
    checkCmd w = none ↔ rsvAField w = 0 ∧ rsvBField w = 0 ∧ immField w = 0 ∧ chmField w ≠ 0 := by
  rw [checkCmd_eq_none_iff]
  rcases hop with hop | hop | hop | hop <;> simp [hop] <;> tauto

/-- EDGE.LOAD: CHM is free but not 0, and all of IMM is free (R91, R92). -/
theorem checkCmd_eq_none_of_edgeLoad {w : Word} (hop : opField w = 0x8#4) :
    checkCmd w = none ↔ rsvAField w = 0 ∧ rsvBField w = 0 ∧ chmField w ≠ 0 := by
  rw [checkCmd_eq_none_iff]
  simp [hop]; tauto

/-! ### The rows of the opcode map (30_encoding.md R93) -/

/-- Every row fixes OP and requires the two reserved fields to be 0, and its pattern holds no other ones. -/
theorem opcodeMap_shape : ∀ r ∈ opcodeMap,
    r.pattern = packFields (opField r.pattern) 0 0 ∧ opField r.mask = BitVec.allOnes 4 ∧
    rsvAField r.mask = BitVec.allOnes 2 ∧ rsvBField r.mask = BitVec.allOnes 8 := by
  decide

/-- What a row's mask fixes of CHM and IMM, by the kind of command its OP selects (R91, R92). -/
theorem opcodeMap_operands : ∀ r ∈ opcodeMap,
    ((opField r.pattern = 0x0#4 ∨ opField r.pattern = 0x1#4 ∨ opField r.pattern = 0x7#4) ∧
      chmField r.mask = BitVec.allOnes 2 ∧ immField r.mask = BitVec.allOnes 16 ∧ r.chm = false) ∨
    ((opField r.pattern = 0x2#4 ∨ opField r.pattern = 0x3#4) ∧
      chmField r.mask = BitVec.allOnes 2 ∧ immField r.mask = 0xFF00 ∧ r.chm = false) ∨
    ((opField r.pattern = 0x4#4 ∨ opField r.pattern = 0x5#4 ∨ opField r.pattern = 0x6#4 ∨ opField r.pattern = 0x9#4) ∧
      chmField r.mask = 0 ∧ immField r.mask = BitVec.allOnes 16 ∧ r.chm = true) ∨
    (opField r.pattern = 0x8#4 ∧ chmField r.mask = 0 ∧ immField r.mask = 0 ∧ r.chm = true) := by
  decide

/-- The rows cover every OP below 0xA. -/
theorem exists_row_of_opField {op : BitVec 4} (h : op < 0xA#4) : ∃ r ∈ opcodeMap, opField r.pattern = op := by
  revert op
  decide

/-- The mask of the byte rows fixes IMM[15:8] (R92). -/
theorem and_immHighMask_eq_zero_iff (imm : Half) : imm &&& 0xFF00 = 0 ↔ immHigh imm = 0 := by
  have hmasked : imm &&& 0xFF00 = immHigh imm ++ 0#8 := by
    calc imm &&& 0xFF00
        = (immHigh imm ++ immByte imm) &&& (BitVec.allOnes 8 ++ 0#8) := by
          rw [immHigh, immByte, BitVec.extractLsb'_append_extractLsb'_eq_extractLsb' (by rfl), BitVec.extractLsb'_eq_self]
          rfl
      _ = immHigh imm ++ 0#8 := by rw [BitVec.and_append, BitVec.and_allOnes, BitVec.and_zero]
  rw [hmasked]
  exact BitVec.append_left_inj (s₂ := 0#8) 0#8

/-- A row reads a word by its fields: OP is the row's, the reserved fields are 0, and CHM and IMM are 0 where the row
fixes them. -/
theorem reads_iff_fields {r : OpcodeRow} (hr : r ∈ opcodeMap) (w : Word) :
    r.reads w ↔
      opField w = opField r.pattern ∧ rsvAField w = 0 ∧ chmField w &&& chmField r.mask = 0 ∧ rsvBField w = 0 ∧
      immField w &&& immField r.mask = 0 ∧ (r.chm = true → chmField w ≠ 0) := by
  obtain ⟨hpattern, hop, hrsvA, hrsvB⟩ := opcodeMap_shape r hr
  obtain ⟨-, prsvA, prsvB, pchm, pimm⟩ := Laws.EncodedFields.fields_of_packFields (opField r.pattern) 0 0
  rw [← hpattern] at prsvA prsvB pchm pimm
  rw [OpcodeRow.reads, and_eq_iff_fields, hop, hrsvA, hrsvB, prsvA, prsvB, pchm, pimm]
  simp only [BitVec.and_allOnes, chmField, and_assoc]

/-- A row of the map reads exactly the words that carry its OP and pass the checks. -/
theorem reads_iff_checkCmd {r : OpcodeRow} (hr : r ∈ opcodeMap) (w : Word) :
    r.reads w ↔ opField w = opField r.pattern ∧ checkCmd w = none := by
  rw [reads_iff_fields hr]
  refine and_congr_right fun hw => ?_
  obtain ⟨hop, hchm, himm, hm⟩ | ⟨hop, hchm, himm, hm⟩ | ⟨hop, hchm, himm, hm⟩ | ⟨hop, hchm, himm, hm⟩ :=
    opcodeMap_operands r hr
  case inl =>
    rw [checkCmd_eq_none_of_plain (hw ▸ hop), hchm, himm, hm, BitVec.and_allOnes, BitVec.and_allOnes]
    simp
  case inr.inl =>
    rw [checkCmd_eq_none_of_byte (hw ▸ hop), hchm, himm, hm, BitVec.and_allOnes, and_immHighMask_eq_zero_iff]
    simp
  case inr.inr.inl =>
    rw [checkCmd_eq_none_of_channel (hw ▸ hop), hchm, himm, hm, BitVec.and_allOnes]
    simp
  case inr.inr.inr =>
    rw [checkCmd_eq_none_of_edgeLoad (hw ▸ hop), hchm, himm, hm]
    simp

/-- The byte operand is w[7:0] (R92). -/
theorem immByte_immField (w : Word) : immByte (immField w) = w.extractLsb' 0 8 := by
  apply BitVec.eq_of_toNat_eq
  rw [immByte, BitVec.extractLsb'_toNat, immField_toNat, BitVec.extractLsb'_toNat, Nat.shiftRight_zero, Nat.shiftRight_zero]
  omega

/-- The model's row selection gives a row's OP the row's command, with the operands of R93. -/
theorem instrOf_eq_command {r : OpcodeRow} (hr : r ∈ opcodeMap) {w : Word} (hop : opField w = opField r.pattern) :
    instrOf (opField w) (chmField w) (immField w) = some (r.command w) := by
  rw [hop]
  simp only [opcodeMap, List.mem_cons, List.not_mem_nil, or_false] at hr
  rcases hr with rfl | rfl | rfl | rfl | rfl | rfl | rfl | rfl | rfl | rfl
  case inr.inr.inl => exact congrArg (some ∘ Instr.crcByte) (immByte_immField w)
  case inr.inr.inr.inl => exact congrArg (some ∘ Instr.crcSet) (immByte_immField w)
  all_goals rfl

/-- Settles O3: a row reads exactly the words with its OP that pass every check, and every word that passes them has the OP
of a row. -/
theorem decoderFollowsOpcodeMap : Obligations.DecoderFollowsOpcodeMap := by
  unfold Obligations.DecoderFollowsOpcodeMap
  constructor
  case left =>
    intro r hr w hreads
    obtain ⟨hop, hpass⟩ := (reads_iff_checkCmd hr w).mp hreads
    exact decode_of_checkCmd_none hpass (instrOf_eq_command hr hop)
  case right =>
    intro w hnone
    cases hcheck : checkCmd w with
    | some e => exact ⟨e, decode_of_checkCmd_some hcheck, checkCmd_eq_firstFailing w ▸ hcheck⟩
    | none =>
      obtain ⟨r, hr, hop⟩ := exists_row_of_opField (opField_lt_of_checkCmd_none hcheck)
      exact absurd ((reads_iff_checkCmd hr w).mpr ⟨hop.symm, hcheck⟩) (hnone r hr)

end Sys2Proof.Reference
end

section
/-! A block of command words that feeds the CRC unit (40_crc.md R117, 30_encoding.md R98): CRC.INIT, then one CRC.BYTE
per byte, each taken by one step. -/

namespace Sys2Proof.Reference

open Sys2Proof Sys2Proof.Machine

/-! ### CRC_ZERO as a host reads it -/

/-- CRC_ZERO stands in bit 4 of STATUS (R28). -/
theorem statusWord_getLsbD_four (s : State) : s.statusWord.getLsbD 4 = s.crcZero := by
  simp only [State.statusWord, BitVec.getLsbD_append]
  simp

theorem crcZero_eq_true (s : State) : s.crcZero = true ↔ s.crc = 0 := by
  simp [State.crcZero]

/-! ### The words of the block -/

/-- The word of a CRC.BYTE command (R98): OP, zeros, and the byte in its low octet. -/
def crcByteWord (b : Byte) : Word := 0x20000000#32 + b.setWidth 32

/-- The writes of one CRC.BYTE per byte: a block without its CRC.INIT. -/
def crcByteWrites (d : List Byte) : List Event := d.map fun b => cmdWrite (crcByteWord b)

theorem crcBlock_eq (d : List Byte) : crcBlock d = cmdWrite 0x10000000 :: crcByteWrites d := rfl

theorem crcByteWrites_cons (b : Byte) (d : List Byte) :
    crcByteWrites (b :: d) = cmdWrite (crcByteWord b) :: crcByteWrites d := rfl

/-- The sum carries nowhere: the byte fills the octet that the OP leaves. -/
theorem crcByteWord_eq_append (b : Byte) : crcByteWord b = 0x200000#24 ++ b := by
  apply BitVec.eq_of_toNat_eq
  rw [BitVec.toNat_append, ← Nat.shiftLeft_add_eq_or_of_lt b.isLt, crcByteWord, BitVec.toNat_add,
    BitVec.toNat_setWidth]
  have hb := b.isLt
  simp only [BitVec.toNat_ofNat, Nat.shiftLeft_eq]
  omega

theorem crcByteWord_lowOctet (b : Byte) : (crcByteWord b).extractLsb' 0 8 = b := by
  rw [crcByteWord_eq_append]
  exact BitVec.extractLsb'_append_eq_right

/-- The mask of the CRC.BYTE row drops the byte (R93). -/
theorem crcByteWord_masked (b : Byte) : crcByteWord b &&& 0xFFFFFF00 = 0x20000000 := by
  calc crcByteWord b &&& 0xFFFFFF00
      = (0x200000#24 ++ b) &&& (0xFFFFFF#24 ++ 0#8) := by rw [crcByteWord_eq_append]; rfl
    _ = 0x200000#24 ++ 0#8 := by rw [BitVec.and_append, BitVec.and_zero]; rfl

/-- The word is read back as CRC.BYTE with its byte, by the CRC.BYTE row of the opcode map. -/
theorem decode_crcByteWord (b : Byte) : Sys2Proof.decode (crcByteWord b) = .ok (.crcByte b) := by
  obtain ⟨hrows, -⟩ := decoderFollowsOpcodeMap
  have hrow := hrows ⟨0x20000000, 0xFFFFFF00, false, fun w => .crcByte (w.extractLsb' 0 8)⟩ (by simp [opcodeMap])
    (crcByteWord b) ⟨crcByteWord_masked b, by simp⟩
  simpa only [crcByteWord_lowOctet] using hrow

theorem decode_crcInitWord : Sys2Proof.decode 0x10000000 = .ok .crcInit := by decide

/-! ### The run of the block -/

/-- A write of a command word is the event that `State.withFetchWord` places. -/
theorem cmdWrite_eq_cmdWriteOf (w : Word) : cmdWrite w = cmdWriteOf 32 w.toNat := by
  rw [cmdWriteOf, Nat.mod_eq_of_lt w.isLt, BitVec.ofNat_toNat, BitVec.setWidth_eq]
  rfl

/-- A step at a write to CMD of a word that decodes runs its command on the state without that event. -/
theorem step_cmdWrite {w : Word} {i : Instr} (hw : Sys2Proof.decode w = .ok i) (s : State) (rest : List Event) :
    step { s with inputs := cmdWrite w :: rest } = exec i { s with inputs := rest } := by
  calc step { s with inputs := cmdWrite w :: rest }
      = step (State.withFetchWord { s with inputs := rest } 32 w.toNat) := by rw [cmdWrite_eq_cmdWriteOf]; rfl
    _ = execWord w { s with inputs := rest } := by
      rw [step_withFetchWord, Nat.mod_eq_of_lt w.isLt, BitVec.ofNat_toNat, BitVec.setWidth_eq]
    _ = exec i { s with inputs := rest } := by simp only [execWord, hw]

/-- A run whose first step answers a next state goes on from there. -/
theorem run_succ_of_step {s t : State} (h : step s = .next t) (k : Nat) :
    Host.Core.run core (k + 1) s = Host.Core.run core k t := by
  have hcore : core.step s = .next t := h
  simp only [Host.Core.run, hcore]

/-- One CRC.BYTE per byte folds the bytes into CRC and changes nothing else (R111, R115). -/
theorem run_crcByteWrites (d : List Byte) (s : State) (rest : List Event) :
    Host.Core.run core d.length ({ s with inputs := crcByteWrites d ++ rest } : State) =
      .next ({ s with crc := d.foldl crc8Step s.crc, inputs := rest } : State) := by
  induction d generalizing s with
  | nil => rfl
  | cons b d ih =>
    have hstep := step_cmdWrite (decode_crcByteWord b) s (crcByteWrites d ++ rest)
    rw [crcByteWrites_cons]
    exact (run_succ_of_step hstep d.length).trans (ih { s with crc := crc8Step s.crc b })

/-- The whole block leaves `crc8` of the bytes in CRC, whatever CRC held before (R111, R114). -/
theorem run_crcBlock (d : List Byte) (s : State) :
    Host.Core.run core (d.length + 1) ({ s with inputs := crcBlock d ++ s.inputs } : State) =
      .next ({ s with crc := crc8 d } : State) := by
  have hstep := step_cmdWrite decode_crcInitWord s (crcByteWrites d ++ s.inputs)
  rw [crcBlock_eq]
  exact (run_succ_of_step hstep d.length).trans (run_crcByteWrites d { s with crc := Config.crcInit } s.inputs)

/-- Settles O15: the run of the block folds the bytes into CRC, and CRC_ZERO and `verify8` both compare CRC with 0. -/
theorem crcBlockComputesVerify : Obligations.CrcBlockComputesVerify := by
  unfold Obligations.CrcBlockComputesVerify
  constructor
  case left =>
    intro s
    rw [statusWord_getLsbD_four, crcZero_eq_true]
  case right =>
    intro d s
    exact ⟨{ s with crc := crc8 d }, run_crcBlock d s, rfl, statusWord_getLsbD_four _⟩

end Sys2Proof.Reference
end

section
/-! The CRC unit shares no state with the channels (40_crc.md R119). That an update neither reads nor writes CRC is one
equation, `IgnoresCrc`: changing CRC before the update or after it comes to the same. -/

namespace Sys2Proof.Machine

open Sys2Proof

/-- The update commutes with a change of CRC, so it does not read CRC. -/
def IgnoresCrc (upd : State → State) : Prop :=
  ∀ (s : State) (x : Byte), upd { s with crc := x } = { upd s with crc := x }

/-- Nor does such an update write CRC: change CRC to what it is. -/
theorem IgnoresCrc.crc_eq {upd : State → State} (h : IgnoresCrc upd) (s : State) : (upd s).crc = s.crc :=
  (congrArg State.crc (h s s.crc) :)

/-- A choice between two such updates by a test that does not read CRC is one. -/
theorem IgnoresCrc.ite {test : State → Bool} {upd upd' : State → State}
    (htest : ∀ (s : State) (x : Byte), test { s with crc := x } = test s) (hupd : IgnoresCrc upd)
    (hupd' : IgnoresCrc upd') : IgnoresCrc fun s => if test s then upd s else upd' s := by
  intro s x
  simp only [htest, hupd s x, hupd' s x]
  split <;> rfl

theorem IgnoresCrc.comp {upd upd' : State → State} (hupd : IgnoresCrc upd) (hupd' : IgnoresCrc upd') :
    IgnoresCrc fun s => upd' (upd s) := by
  intro s x
  simp only [hupd s x, hupd' (upd s) x]

/-! ### TICK (42_edge_detector.md R150) -/

theorem tickChannels_ignoresCrc (s0 s1 : Half) : IgnoresCrc (State.tickChannels s0 s1) := fun _ _ => rfl

/-- CompletionCheck reads the transaction, REPLY_TIMEOUT and the channels only (R160). -/
theorem completionCheck_ignoresCrc : IgnoresCrc State.completionCheck :=
  IgnoresCrc.ite (test := State.completes) (fun _ _ => rfl) (fun _ _ => rfl) (fun _ _ => rfl)

theorem tick_ignoresCrc (s0 s1 : Half) : IgnoresCrc (State.tick s0 s1) :=
  (tickChannels_ignoresCrc s0 s1).comp completionCheck_ignoresCrc

/-! ### The channel commands (41_channel_control.md, 43_bit_sync.md R189 and R190) -/

/-- The meaning answers a next state by an update that neither reads nor writes CRC. -/
def MeaningIgnoresCrc (meaning : State → Host.Outcome State Fault Refusal) : Prop :=
  ∃ upd : State → State, IgnoresCrc upd ∧ ∀ s, meaning s = .next (upd s)

/-- The channel commands share one shape: rejected with BUSY, or an update (60_exceptions.md R201). -/
theorem busyOr_ignoresCrc {refused : State → Bool} {upd : State → State}
    (hrefused : ∀ (s : State) (x : Byte), refused { s with crc := x } = refused s) (hupd : IgnoresCrc upd) :
    MeaningIgnoresCrc fun s => if refused s then .next (s.raise .busy) else .next (upd s) :=
  ⟨fun s => if refused s then s.raise .busy else upd s, IgnoresCrc.ite hrefused (fun _ _ => rfl) hupd,
    fun _ => (apply_ite Host.Outcome.next _ _ _).symm⟩

theorem execChReset_ignoresCrc (chm : ChMask) : MeaningIgnoresCrc (execChReset chm) :=
  busyOr_ignoresCrc (upd := fun s => s.mapNamed chm Channel.clearChannel) (fun _ _ => rfl) fun _ _ => rfl

theorem execCalStart_ignoresCrc (chm : ChMask) : MeaningIgnoresCrc (execCalStart chm) :=
  busyOr_ignoresCrc (upd := fun s => s.mapNamed chm (Channel.startCal s.calSettle)) (fun _ _ => rfl) fun _ _ => rfl

theorem execRxStart_ignoresCrc (chm : ChMask) : MeaningIgnoresCrc (execRxStart chm) :=
  busyOr_ignoresCrc (refused := State.txnActive) (fun _ _ => rfl) fun _ _ => rfl

theorem execRxAbort_ignoresCrc : MeaningIgnoresCrc execRxAbort :=
  ⟨_, fun _ _ => rfl, fun _ => rfl⟩

theorem execEdgeLoad_ignoresCrc (chm : ChMask) (t : Half) : MeaningIgnoresCrc (execEdgeLoad chm t) :=
  busyOr_ignoresCrc (upd := fun s => s.mapNamed chm (Channel.recordEdge t)) (fun _ _ => rfl) fun _ _ => rfl

theorem execDecode_ignoresCrc (chm : ChMask) : MeaningIgnoresCrc (execDecode chm) :=
  busyOr_ignoresCrc (upd := fun s => s.mapNamed chm Channel.decodeRx) (fun _ _ => rfl) fun _ _ => rfl

/-- Every command outside the CRC family is a channel command, and none of them reads or writes CRC. -/
theorem exec_ignoresCrc {i : Instr} (hplain : i ∉ [Instr.nop, .crcInit]) (hbyte : ∀ b, i ≠ .crcByte b)
    (hset : ∀ v, i ≠ .crcSet v) : MeaningIgnoresCrc (exec i) := by
  cases i with
  | nop => simp at hplain
  | crcInit => simp at hplain
  | crcByte b => exact absurd rfl (hbyte b)
  | crcSet v => exact absurd rfl (hset v)
  | chReset chm => exact execChReset_ignoresCrc chm
  | calStart chm => exact execCalStart_ignoresCrc chm
  | rxStart chm => exact execRxStart_ignoresCrc chm
  | rxAbort => exact execRxAbort_ignoresCrc
  | edgeLoad chm t => exact execEdgeLoad_ignoresCrc chm t
  | decode chm => exact execDecode_ignoresCrc chm

/-- What ignoring CRC says of one next state the meaning answers. -/
theorem MeaningIgnoresCrc.of_next {meaning : State → Host.Outcome State Fault Refusal} (h : MeaningIgnoresCrc meaning)
    {s t : State} (ht : meaning s = .next t) (x : Byte) :
    t.crc = s.crc ∧ meaning { s with crc := x } = .next { t with crc := x } := by
  obtain ⟨upd, hupd, hmeaning⟩ := h
  obtain rfl : upd s = t := by simpa [hmeaning] using ht
  exact ⟨hupd.crc_eq s, by rw [hmeaning, hupd s x]⟩

/-! ### Rejected words of the CRC family (60_exceptions.md R203) -/

/-- A rejected word is no row of the opcode map, so its code is that of the first failing check. -/
theorem firstFailing_of_decode_error {w : Word} {e : ErrCode} (h : Sys2Proof.decode w = .error e) :
    Reference.firstFailing w = some e := by
  obtain ⟨hrows, hrest⟩ := Reference.decoderFollowsOpcodeMap
  have hnone : ∀ r ∈ Reference.opcodeMap, ¬ r.reads w := by
    intro r hr hreads
    simp [hrows r hr w hreads] at h
  obtain ⟨e', herror, hfails⟩ := hrest w hnone
  obtain rfl : e' = e := by simpa [herror] using h
  exact hfails

/-- With OP below 4 the checks for ILLEGAL_OP and BAD_MASK cannot fail; the others report RESERVED_FIELD. -/
theorem firstFailing_of_crcFamily {w : Word} {e : ErrCode} (hop : w.toNat / 2 ^ 28 < 4)
    (h : Reference.firstFailing w = some e) : e = .reservedField := by
  have hlegal : ¬ 10 ≤ w.toNat / 2 ^ 28 := by omega
  have hchannel : w.toNat / 2 ^ 28 ∉ [4, 5, 6, 8, 9] := by
    simp only [List.mem_cons, List.not_mem_nil, or_false]
    omega
  simp only [Reference.firstFailing, hlegal, hchannel, false_and, if_false] at h
  split_ifs at h <;> exact (Option.some.inj h).symm

/-- Settles O16: TICK and the channel commands ignore CRC, each CRC command is an update of CRC alone, and a rejected
word of the CRC family fails a RESERVED_FIELD check. -/
theorem crcUnitIsIndependent : Obligations.CrcUnitIsIndependent := by
  unfold Obligations.CrcUnitIsIndependent
  refine ⟨?ticks, ?channelCommands, ?crcCommands⟩
  case ticks => exact fun s s0 s1 x => tick_ignoresCrc s0 s1 s x
  case channelCommands =>
    intro i s t x hplain hbyte hset hnext
    exact (exec_ignoresCrc hplain hbyte hset).of_next hnext x
  case crcCommands =>
    intro s b
    refine ⟨{ s with crc := Config.crcInit }, { s with crc := crc8Step s.crc b }, { s with crc := b },
      rfl, rfl, rfl, rfl, rfl, rfl, ?rejected⟩
    case rejected => exact fun w e hop herror => firstFailing_of_crcFamily hop (firstFailing_of_decode_error herror)

end Sys2Proof.Machine
end

section
/-! ChannelTick by phase (42_edge_detector.md R150 to R153): the polarity of a sample, calibration, and the phases that
ignore the sample. -/

namespace Sys2Proof.Machine

open Sys2Proof

/-! ### Polarity (R153) -/

theorem hi_eq_true_iff_lt (k : Channel) (x : Half) : k.hi x = true ↔ k.thresh < x :=
  (hi_eq_true k x).trans BitVec.lt_def.symm

theorem hi_eq_false_iff_le (k : Channel) (x : Half) : k.hi x = false ↔ x ≤ k.thresh := by
  rw [Bool.eq_false_iff, Ne, hi_eq_true_iff_lt, BitVec.not_lt]

/-- Settles O29: a low sample is one at most THRESH, and no sample exceeds 0xFFFF. -/
theorem polarityIsStrict : Obligations.PolarityIsStrict := by
  unfold Obligations.PolarityIsStrict
  intro k x
  refine ⟨hi_eq_true_iff_lt k x, ?equal, ?uncalibrated⟩
  case equal =>
    rintro rfl
    exact (hi_eq_false_iff_le k _).mpr (BitVec.le_refl _)
  case uncalibrated =>
    intro hmax
    rw [hi_eq_false_iff_le, hmax]
    exact BitVec.not_lt.mp BitVec.not_allOnes_lt

/-! ### Calibration (R152) -/

theorem tick_of_cal (b : Bool) (x : Half) (k : Channel) (h : k.phase = .cal) : k.tick b x = k.tickCal x := by
  simp [Channel.tick, h]

/-- SETTLE_LEFT counts down without wrap. -/
theorem toNat_sub_one_add_one {v : Half} (h : v ≠ 0) : (v - 1).toNat + 1 = v.toNat := by
  bv_omega

/-- CAL_CNT counts up without wrap below its last value. -/
theorem toNat_add_one_of_ne_max {v : Half} (h : v ≠ 0xFFFF) : (v + 1).toNat = v.toNat + 1 := by
  bv_omega

/-- At most 0xFFFF samples of 16 bits and one more stay below 2^32, so CAL_SUM does not wrap (10_state.md R37). -/
theorem calSum_add_toNat {sum : Word} {cnt : Half} (x : Half)
    (hsum : sum.toNat ≤ cnt.toNat * 65535) : (sum + x.setWidth 32).toNat = sum.toNat + x.toNat := by
  bv_omega

/-- Settles O30: the three clauses are the three cases of `tickCal_cases`. -/
theorem calibrationTickAccumulates : Obligations.CalibrationTickAccumulates := by
  unfold Obligations.CalibrationTickAccumulates
  intro k b x hcal
  rw [tick_of_cal b x k hcal]
  rcases tickCal_cases x k with ⟨hsettle, hk⟩ | ⟨hsettled, hroom, hk⟩ | ⟨hsettled, hfull, hk⟩ <;> rw [hk]
  case inl =>
    exact ⟨fun _ => ⟨rfl, toNat_sub_one_add_one hsettle⟩, fun h => absurd h hsettle, fun h => absurd h hsettle⟩
  case inr.inl =>
    exact ⟨fun h => absurd hsettled h, fun _ h => absurd h hroom,
      fun _ _ => ⟨rfl, toNat_add_one_of_ne_max hroom, calSum_add_toNat x⟩⟩
  case inr.inr => exact ⟨fun h => absurd hsettled h, fun _ _ => rfl, fun _ h => absurd hfull h⟩

/-! ### The quiet phases (R151) -/

theorem tick_of_idle (b : Bool) (x : Half) (k : Channel) (h : k.phase = .idle) : k.tick b x = k := by
  simp [Channel.tick, h]

theorem tick_of_done (b : Bool) (x : Half) (k : Channel) (h : k.phase = .done) :
    k.tick b x = if b then { k with idleCnt := satInc k.idleCnt } else k := by
  simp [Channel.tick, h]

/-- Each channel of a TICK has its own ChannelTick (R150). -/
theorem tickChannels_ch (s0 s1 : Half) (s : State) (c : Chan) :
    (s.tickChannels s0 s1).ch c = (s.ch c).tick (s.inTxn c) (sampleOf s0 s1 c) :=
  State.mapChans_ch _ s c

/-- Settles O37: by phase, and for a done channel by whether it takes part in the active transaction. -/
theorem quietChannelIgnoresSamples : Obligations.QuietChannelIgnoresSamples := by
  unfold Obligations.QuietChannelIgnoresSamples
  intro s c s0 s1 k k'
  have hk' : k' = k.tick (s.inTxn c) (sampleOf s0 s1 c) := tickChannels_ch s0 s1 s c
  rw [hk']
  refine ⟨tick_of_idle _ _ k, ?doneOutside, ?doneInside⟩
  case doneOutside =>
    intro hdone hout
    rw [← inTxn_eq_true] at hout
    rw [tick_of_done _ _ k hdone, if_neg hout]
  case doneInside =>
    intro hdone hactive hnamed
    rw [tick_of_done _ _ k hdone, if_pos ((inTxn_eq_true s c).mpr ⟨hactive, hnamed⟩)]
    exact ⟨rfl, satInc_toNat k.idleCnt⟩

end Sys2Proof.Machine
end

section
/-! Bits(g), the gap rounded to bit periods (43_bit_sync.md R181): its value as an interval of gaps, and its value on the
difference of two timestamps. -/

namespace Sys2Proof.Machine

open Sys2Proof

theorem gapBits_eq (g : Half) : gapBits g = (g.toNat + 5) / 10 := rfl

/-- Rounding half up: n bit periods are the gaps from half a period below 10n to just under half a period above. -/
theorem gapBits_eq_iff (g : Half) (n : Nat) : gapBits g = n ↔ 10 * n ≤ g.toNat + 5 ∧ g.toNat + 5 < 10 * (n + 1) := by
  rw [gapBits_eq, Nat.div_eq_iff (by decide)]
  omega

theorem le_gapBits_iff (g : Half) (n : Nat) : n ≤ gapBits g ↔ 10 * n ≤ g.toNat + 5 := by
  rw [gapBits_eq, Nat.le_div_iff_mul_le (by decide), Nat.mul_comm]

/-- The gap of two timestamps is their difference modulo 2^16 (R181). -/
theorem gap_toNat (e e' : Half) : (e' - e).toNat = (e'.toNat + 65536 - e.toNat) % 65536 := by
  have he : e.toNat < 65536 := e.isLt
  rw [BitVec.toNat_sub, ← Nat.sub_add_comm he.le, Nat.add_comm 65536]

/-- Settles O24: each row of R181's table is an instance of the interval of gaps that round to n. -/
theorem gapRoundsHalfUp : Obligations.GapRoundsHalfUp := by
  unfold Obligations.GapRoundsHalfUp
  refine ⟨?glitch, ?run, ?long, ?modulo⟩
  case glitch =>
    intro g
    rw [gapBits_eq_iff]
    omega
  case run =>
    intro g n hn
    rw [gapBits_eq_iff]
    omega
  case long =>
    intro g
    rw [le_gapBits_iff]
    omega
  case modulo =>
    intro e e'
    rw [gapBits_eq, gap_toNat]

end Sys2Proof.Machine
end

section
/-! process_bits as the walk along the edges and as the indexed loop of the spec (43_bit_sync.md R180). The two carry the
same B, pos and z; the walk keeps err among them, the loop answers it beside them. One pass of the loop's body is
`gapStep`, and the rest is an induction along the list. -/

namespace Sys2Proof.Reference

open Sys2Proof Sys2Proof.Machine

/-- What the indexed loop carries, with its failure flag, as the walk's accumulator. -/
def LoopState.toAcc (a : LoopState) (failed : Bool) : BitAcc :=
  ⟨a.bits, a.pos, if failed then .missingStart else .none, a.zeros⟩

@[simp] theorem toAcc_bits (a : LoopState) (failed : Bool) : (a.toAcc failed).bits = a.bits := rfl
@[simp] theorem toAcc_zeros (a : LoopState) (failed : Bool) : (a.toAcc failed).zeros = a.zeros := rfl

@[simp] theorem toAcc_err_eq_missingStart (a : LoopState) (failed : Bool) :
    (a.toAcc failed).err = .missingStart ↔ failed = true := by
  cases failed <;> simp [LoopState.toAcc]

/-! ### The indexed loop, one pass at a time -/

/-- The gap the loop looks at with index i: E[i+1] - E[i]. -/
def gapAt (es : List Half) (i : Nat) : Half := es.getD (i + 1) 0 - es.getD i 0

section
variable {es : List Half} {cap fuel i : Nat} {a : LoopState}

theorem decodeLoop_of_full (h : a.bits.length = cap) : decodeLoop es cap fuel i a = (a, false) := by
  cases fuel with
  | zero => rfl
  | succ fuel => exact if_pos h

theorem decodeLoop_of_zero (hroom : a.bits.length ≠ cap) (h : gapBits (gapAt es i) = 0) :
    decodeLoop es cap (fuel + 1) i a = decodeLoop es cap fuel (i + 1) { a with zeros := a.zeros + 1 } :=
  (if_neg hroom).trans (if_pos h)

theorem decodeLoop_of_long (hroom : a.bits.length ≠ cap) (h0 : gapBits (gapAt es i) ≠ 0)
    (h : 8 < if a.pos = 0 then gapBits (gapAt es i) - 1 else gapBits (gapAt es i)) :
    decodeLoop es cap (fuel + 1) i a = (a, true) :=
  (if_neg hroom).trans ((if_neg h0).trans (if_pos h))

theorem decodeLoop_of_run (hroom : a.bits.length ≠ cap) (h0 : gapBits (gapAt es i) ≠ 0)
    (h : (if a.pos = 0 then gapBits (gapAt es i) - 1 else gapBits (gapAt es i)) ≤ 8) :
    let pos := if a.pos = 0 then 1 else a.pos
    let k := min (if a.pos = 0 then gapBits (gapAt es i) - 1 else gapBits (gapAt es i)) (min (9 - pos) (cap - a.bits.length))
    decodeLoop es cap (fuel + 1) i a = decodeLoop es cap fuel (i + 1)
      ⟨a.bits ++ List.replicate k (decide (i % 2 = 0)), if pos + k = 9 then 0 else pos + k, a.zeros⟩ :=
  (if_neg hroom).trans ((if_neg h0).trans (if_neg (Nat.not_lt.mpr h)))

/-- Below the capacity the body of the loop is `gapStep`: a failure ends the loop with B, pos and z as they were, and any
other gap goes on to the next index. -/
theorem decodeLoop_succ (hroom : a.bits.length ≠ cap) :
    let b := gapStep cap (decide (i % 2 = 0)) (gapAt es i) (a.toAcc false)
    (b = a.toAcc true ∧ decodeLoop es cap (fuel + 1) i a = (a, true)) ∨
    ∃ a', b = a'.toAcc false ∧ decodeLoop es cap (fuel + 1) i a = decodeLoop es cap fuel (i + 1) a' := by
  by_cases h0 : gapBits (gapAt es i) = 0
  case pos => exact .inr ⟨_, gapStep_of_zero _ _ _ _ h0, decodeLoop_of_zero hroom h0⟩
  case neg =>
    by_cases hrun : (if a.pos = 0 then gapBits (gapAt es i) - 1 else gapBits (gapAt es i)) ≤ 8
    case pos => exact .inr ⟨_, gapStep_of_run _ _ _ _ h0 hrun, decodeLoop_of_run hroom h0 hrun⟩
    case neg =>
      have hlong := Nat.not_le.mp hrun
      exact .inl ⟨gapStep_of_long _ _ _ _ hlong, decodeLoop_of_long hroom h0 hlong⟩

end

/-! ### The walk is the loop -/

theorem walkEdges_of_stop {cap : Nat} {a : BitAcc} (h : a.bits.length = cap ∨ a.err = .missingStart) (lvl : Bool) (e : Half)
    (rest : List Half) : walkEdges cap lvl e rest a = a := by
  cases rest with
  | nil => rfl
  | cons e' rest => exact if_pos h

theorem walkEdges_of_room {cap : Nat} {a : LoopState} (hroom : a.bits.length ≠ cap) (lvl : Bool) (e e' : Half)
    (rest : List Half) :
    walkEdges cap lvl e (e' :: rest) (a.toAcc false) =
      walkEdges cap (!lvl) e' rest (gapStep cap lvl (e' - e) (a.toAcc false)) :=
  if_neg (by simpa using hroom)

/-- The gap at the head of what is left of the list. -/
theorem gapAt_of_drop {es : List Half} {i : Nat} {e e' : Half} {rest : List Half} (hes : es.drop i = e :: e' :: rest) :
    gapAt es i = e' - e := by
  have he : es[i]? = some e := by rw [← Nat.add_zero i, ← List.getElem?_drop, hes, List.getElem?_cons_zero]
  have he' : es[i + 1]? = some e' := by
    rw [← List.getElem?_drop, hes, List.getElem?_cons_succ, List.getElem?_cons_zero]
  simp [gapAt, List.getD, he, he']

theorem decide_succ_even (i : Nat) : decide ((i + 1) % 2 = 0) = !decide (i % 2 = 0) := by
  rw [← decide_not, decide_eq_decide]
  omega

/-- From index i on, the walk over the edges that are left is the indexed loop. -/
theorem walkEdges_eq_decodeLoop {es : List Half} (cap : Nat) {i : Nat} {e : Half} {rest : List Half} (a : LoopState)
    (hes : es.drop i = e :: rest) :
    walkEdges cap (decide (i % 2 = 0)) e rest (a.toAcc false) =
      (decodeLoop es cap rest.length i a).1.toAcc (decodeLoop es cap rest.length i a).2 := by
  induction rest generalizing i e a with
  | nil => rfl
  | cons e' rest ih =>
    by_cases hfull : a.bits.length = cap
    case pos => rw [decodeLoop_of_full hfull, walkEdges_of_stop (.inl hfull)]
    case neg =>
      have hnext : es.drop (i + 1) = e' :: rest := by rw [← List.tail_drop, hes, List.tail_cons]
      rw [List.length_cons, walkEdges_of_room hfull, ← gapAt_of_drop hes]
      rcases decodeLoop_succ (es := es) (fuel := rest.length) (i := i) hfull with ⟨hb, hloop⟩ | ⟨a', hb, hloop⟩
      case inl => rw [hb, hloop, walkEdges_of_stop (.inr rfl)]
      case inr => rw [hb, hloop, ← decide_succ_even, ih a' hnext]

/-- The walk of process_bits from its first edge. -/
theorem walkEdges_start_eq_decodeLoop (cap : Nat) (e : Half) (rest : List Half) :
    let r := decodeLoop (e :: rest) cap rest.length 0 ⟨[], 0, 0⟩
    walkEdges cap true e rest BitAcc.start = r.1.toAcc r.2 :=
  walkEdges_eq_decodeLoop cap ⟨[], 0, 0⟩ (List.drop_zero (l := e :: rest))

/-! ### process_bits -/

theorem processBits_of_missingStart {cap : Nat} {e : Half} {rest : List Half} {a : BitAcc}
    (ha : walkEdges cap true e rest BitAcc.start = a) (h : a.err = .missingStart) :
    processBits (e :: rest) cap = ⟨a.bits, a.bits.length, .missingStart, a.zeros⟩ := by
  simp [processBits, ha, h]

theorem processBits_of_padded {cap : Nat} {e : Half} {rest : List Half} {a : BitAcc}
    (ha : walkEdges cap true e rest BitAcc.start = a) (h : a.err ≠ .missingStart) :
    processBits (e :: rest) cap =
      ⟨padBits cap (decide (rest.length % 2 = 0)) a.bits, a.bits.length, a.err, a.zeros⟩ := by
  have hlast : (((e :: rest).length % 2 == 1) : Bool) = decide (rest.length % 2 = 0) := by
    rw [List.length_cons, beq_eq_decide, decide_eq_decide]
    omega
  simp only [processBits, ha, if_neg h, hlast]

theorem padBits_length {cap : Nat} {bits : List Bool} (lf : Bool) (h : bits.length ≤ cap) :
    (padBits cap lf bits).length = cap := by
  rw [padBits, List.length_append, List.length_replicate, Nat.add_sub_cancel' h]

/-- The bit list fits the capacity, padded or not (R180). -/
theorem processBits_length_le (es : List Half) (cap : Nat) : (processBits es cap).bits.length ≤ cap := by
  cases es with
  | nil => exact Nat.zero_le cap
  | cons e rest =>
    have hwalk := walkEdges_length cap true e rest BitAcc.start (Nat.zero_le cap)
    by_cases h : (walkEdges cap true e rest BitAcc.start).err = .missingStart
    case pos => rwa [processBits_of_missingStart rfl h]
    case neg =>
      rw [processBits_of_padded rfl h]
      exact (padBits_length _ hwalk).le

/-- The reference decoder answers what process_bits answers, with the failure as a flag. -/
theorem decodeBits_eq_processBits (es : List Half) (cap : Nat) :
    let r := processBits es cap
    decodeBits es cap = (r.bits, r.nb, decide (r.err = .missingStart), r.zeros) := by
  cases es with
  | nil => rfl
  | cons e rest =>
    have hwalk := walkEdges_start_eq_decodeLoop cap e rest
    rcases hloop : decodeLoop (e :: rest) cap rest.length 0 ⟨[], 0, 0⟩ with ⟨a, failed⟩
    rw [hloop] at hwalk
    cases failed with
    | true =>
      rw [processBits_of_missingStart hwalk rfl]
      simp [decodeBits, hloop]
    | false =>
      rw [processBits_of_padded hwalk (by simp)]
      simp [decodeBits, hloop, padBits]

/-- Settles O23: the two decoders agree by induction along the edge list, and the walk keeps to the capacity. -/
theorem processBitsIsTheIndexedLoop : Obligations.ProcessBitsIsTheIndexedLoop := by
  unfold Obligations.ProcessBitsIsTheIndexedLoop
  intro es cap
  rw [decodeBits_eq_processBits]
  exact ⟨rfl, rfl, decide_eq_true_iff.symm, rfl, processBits_length_le es cap⟩

end Sys2Proof.Reference
end

section
/-! A write to CMD (10_state.md R29, 60_exceptions.md R203): which offset is CMD, and what the word written there does. -/

namespace Sys2Proof.Machine

open Sys2Proof

/-! ### The write and the register it selects (20_memory.md R76, R77) -/

/-- A write that selects CMD runs its word. -/
theorem execBusWrite_of_cmd {addr : Offset} (v : Word) (s : State) (haligned : misaligned addr = false)
    (hreg : regAt addr = .cmd) : execBusWrite addr v s = execWord v s := by
  obtain ⟨hmis, -⟩ | ⟨-, -, hwrite⟩ | ⟨-, hne, -⟩ := execBusWrite_cases addr v s
  · simp [haligned] at hmis
  · exact hwrite
  · exact absurd hreg hne

/-- Any other aligned write is a write to the register at its offset. -/
theorem execBusWrite_of_reg {addr : Offset} (v : Word) (s : State) (haligned : misaligned addr = false)
    (hreg : regAt addr ≠ .cmd) : execBusWrite addr v s = .next (s.writeReg v (regAt addr)) := by
  obtain ⟨hmis, -⟩ | ⟨-, heq, -⟩ | ⟨-, -, hwrite⟩ := execBusWrite_cases addr v s
  · simp [haligned] at hmis
  · exact absurd heq hreg
  · exact hwrite

theorem chanReg_ne_cmd (c : Chan) (n : Nat) : chanReg c n ≠ .cmd := by
  unfold chanReg
  split_ifs <;> simp

theorem globalReg_eq_cmd {n : Nat} (h : globalReg n = .cmd) : n = 0x00C := by
  unfold globalReg at h
  split_ifs at h
  assumption

/-- Only one offset selects CMD (R77). -/
theorem offset_of_regAt_eq_cmd {addr : Offset} (h : regAt addr = .cmd) : addr = 0x00C := by
  simp only [regAt] at h
  split_ifs at h
  case pos => exact BitVec.eq_of_toNat_eq (globalReg_eq_cmd h)
  all_goals exact absurd h (chanReg_ne_cmd _ _)

/-! ### The word (60_exceptions.md R203) -/

theorem deliver_cmdWrite (w : Word) (s : State) : deliver (Reference.cmdWrite w) s = execWord w s := by
  rw [Reference.cmdWrite, deliver_busWrite]
  exact execBusWrite_of_cmd w s (by decide) (by decide)

theorem execWord_of_error {w : Word} {e : ErrCode} (h : decode w = .error e) (s : State) :
    execWord w s = .next (s.raise e) := by
  simp only [execWord, h]

theorem execWord_of_ok {w : Word} {i : Instr} (h : decode w = .ok i) (s : State) : execWord w s = exec i s := by
  simp only [execWord, h]

/-- A word that fails a check is rejected with the code of the first one that fails. -/
theorem decode_of_firstFailing_some {w : Word} {e : ErrCode} (h : Reference.firstFailing w = some e) :
    decode w = .error e :=
  Reference.decode_of_checkCmd_some ((Reference.checkCmd_eq_firstFailing w).trans h)

/-- A word that fails no check is a command, for a rejected one fails a check. -/
theorem decode_of_firstFailing_none {w : Word} (h : Reference.firstFailing w = none) : ∃ i, decode w = .ok i := by
  cases hdecode : decode w with
  | error e =>
    have hfails := firstFailing_of_decode_error hdecode
    simp [h] at hfails
  | ok i => exact ⟨i, rfl⟩

/-- Settles O4: the decoder rejects exactly the words that fail a check, and a rejected word answers `State.raise`. -/
theorem commandWordCheckedInOrder : Obligations.CommandWordCheckedInOrder := by
  unfold Obligations.CommandWordCheckedInOrder
  intro w s
  rw [deliver_cmdWrite]
  constructor
  case left =>
    intro e hfails
    exact execWord_of_error (decode_of_firstFailing_some hfails) s
  case right =>
    intro hpasses
    obtain ⟨i, hdecode⟩ := decode_of_firstFailing_none hpasses
    exact ⟨i, hdecode, execWord_of_ok hdecode s⟩

end Sys2Proof.Machine
end

section
/-! THRESH through a TICK (42_edge_detector.md R150 to R160): no part of ChannelTick and no completion writes it. -/

namespace Sys2Proof.Machine

open Sys2Proof

@[simp] theorem Channel.recordEdge_thresh (t : Half) (k : Channel) : (k.recordEdge t).thresh = k.thresh := by
  rw [recordEdge_frame]

@[simp] theorem Channel.headerDecode_thresh (k : Channel) : k.headerDecode.thresh = k.thresh := by
  rw [headerDecode_frame]

@[simp] theorem Channel.headerCheck_thresh (k : Channel) : k.headerCheck.thresh = k.thresh := by
  obtain ⟨-, -, hk⟩ | ⟨-, hk⟩ := headerCheck_cases k <;> simp [hk]

@[simp] theorem Channel.endCheck_thresh (k : Channel) : k.endCheck.thresh = k.thresh := by
  obtain ⟨-, hk⟩ | ⟨-, hk⟩ := endCheck_cases k <;> simp [hk]

@[simp] theorem Channel.advance_thresh (k : Channel) : k.advance.thresh = k.thresh :=
  Channel.endCheck_thresh _

@[simp] theorem Channel.waitSample_thresh (x : Half) (k : Channel) : (k.waitSample x).thresh = k.thresh := by
  obtain ⟨-, hk⟩ | ⟨-, hk⟩ := waitSample_cases x k <;> simp [hk]

@[simp] theorem Channel.startedSample_thresh (x : Half) (k : Channel) : (k.startedSample x).thresh = k.thresh := by
  obtain ⟨-, hk⟩ | ⟨-, hk⟩ := startedSample_cases x k <;> simp [hk]

@[simp] theorem Channel.tickCal_thresh (x : Half) (k : Channel) : (k.tickCal x).thresh = k.thresh := by
  obtain ⟨-, hk⟩ | ⟨-, -, hk⟩ | ⟨-, -, hk⟩ := tickCal_cases x k <;> rw [hk]

@[simp] theorem Channel.complete_thresh (k : Channel) : k.complete.thresh = k.thresh := by
  obtain ⟨-, hk⟩ | ⟨-, hk⟩ := complete_cases k <;> simp [hk]

/-- ChannelTick keeps THRESH, in every phase. -/
@[simp] theorem Channel.tick_thresh (inTxn : Bool) (x : Half) (k : Channel) : (k.tick inTxn x).thresh = k.thresh := by
  cases hphase : k.phase with
  | idle => rw [tick_of_idle _ _ _ hphase]
  | cal => rw [tick_of_cal _ _ _ hphase, Channel.tickCal_thresh]
  | wait => rw [tick_of_wait _ _ _ hphase, Channel.advance_thresh, Channel.waitSample_thresh]
  | started =>
    rw [tick_of_started _ _ _ hphase, Channel.advance_thresh, Channel.headerCheck_thresh, Channel.startedSample_thresh]
  | done =>
    rw [tick_of_done _ _ _ hphase]
    split <;> rfl

end Sys2Proof.Machine
end

section
/-! The parameters a calibration or transaction runs with (60_exceptions.md R205). `configRegs` and `thresholds` read them
off a state, so that "the parameters are kept" is an equation, true by rfl of every update of other fields. -/

namespace Sys2Proof.Machine

open Sys2Proof

/-- MARGIN, CAL_SETTLE and REPLY_TIMEOUT (10_state.md R25 to R27). -/
def State.configRegs (s : State) : Half × Half × Half := (s.margin, s.calSettle, s.replyTimeout)

/-- THRESH of both channels (10_state.md R36). -/
def State.thresholds (s : State) : Half × Half := (s.ch0.thresh, s.ch1.thresh)

theorem configRegs_eq_iff (s t : State) :
    t.configRegs = s.configRegs ↔
      t.margin = s.margin ∧ t.calSettle = s.calSettle ∧ t.replyTimeout = s.replyTimeout := by
  simp only [State.configRegs, Prod.mk.injEq]

theorem thresholds_eq_iff (s t : State) :
    t.thresholds = s.thresholds ↔ ∀ c, (t.ch c).thresh = (s.ch c).thresh := by
  simp only [State.thresholds, Prod.mk.injEq]
  constructor
  · rintro ⟨h0, h1⟩ (_ | _)
    · exact h0
    · exact h1
  · exact fun h => ⟨h .ch0, h .ch1⟩

/-- From s to t no parameter changes. -/
def KeepsParameters (s t : State) : Prop := t.configRegs = s.configRegs ∧ t.thresholds = s.thresholds

theorem KeepsParameters.trans {s t u : State} (h : KeepsParameters s t) (h' : KeepsParameters t u) :
    KeepsParameters s u :=
  ⟨h'.1.trans h.1, h'.2.trans h.2⟩

theorem raise_keepsParameters (e : ErrCode) (s : State) : KeepsParameters s (s.raise e) := ⟨rfl, rfl⟩

/-- A loop over the channels keeps the parameters when the update of a channel keeps its THRESH. -/
theorem mapChans_keepsParameters {f : Chan → Channel → Channel} (hf : ∀ c k, (f c k).thresh = k.thresh) (s : State) :
    KeepsParameters s (s.mapChans f) :=
  ⟨rfl, Prod.ext (hf .ch0 s.ch0) (hf .ch1 s.ch1)⟩

theorem mapNamed_keepsParameters (chm : ChMask) {f : Channel → Channel} (hf : ∀ k, (f k).thresh = k.thresh)
    (s : State) : KeepsParameters s (s.mapNamed chm f) := by
  refine mapChans_keepsParameters (fun c k => ?_) s
  split
  · exact hf k
  · rfl

/-! ### TICK (42_edge_detector.md R150) -/

theorem completionCheck_keepsParameters (s : State) : KeepsParameters s s.completionCheck := by
  obtain ⟨-, hs⟩ | ⟨-, hs⟩ := completionCheck_cases s <;> rw [hs]
  · exact mapNamed_keepsParameters s.txnMask Channel.complete_thresh s
  · exact ⟨rfl, rfl⟩

theorem tick_keepsParameters (s0 s1 : Half) (s : State) : KeepsParameters s (s.tick s0 s1) :=
  (mapChans_keepsParameters (fun _ _ => Channel.tick_thresh _ _ _) s).trans (completionCheck_keepsParameters _)

/-! ### Commands (40_crc.md, 41_channel_control.md, 43_bit_sync.md) -/

/-- RX.START writes no parameter but the thresholds it computes (41_channel_control.md R132, R133). -/
theorem execRxStart_configRegs {chm : ChMask} {s t : State} (h : execRxStart chm s = .next t) :
    t.configRegs = s.configRegs := by
  obtain ⟨-, rfl⟩ | ⟨-, rfl⟩ := execRxStart_cases h <;> rfl

/-- Every other command keeps the parameters. -/
theorem exec_keepsParameters {i : Instr} {s t : State} (hi : ∀ chm, i ≠ .rxStart chm) (h : exec i s = .next t) :
    KeepsParameters s t := by
  cases i with
  | nop | crcInit | crcByte | crcSet => cases h; exact ⟨rfl, rfl⟩
  | chReset chm =>
    obtain ⟨-, rfl⟩ | ⟨-, rfl⟩ := execChReset_cases h
    · exact raise_keepsParameters .busy s
    · exact mapNamed_keepsParameters chm Channel.clearChannel_thresh s
  | calStart chm =>
    obtain ⟨-, rfl⟩ | ⟨-, rfl⟩ := execCalStart_cases h
    · exact raise_keepsParameters .busy s
    · exact mapNamed_keepsParameters chm (Channel.startCal_thresh s.calSettle) s
  | rxStart chm => exact absurd rfl (hi chm)
  | rxAbort =>
    obtain rfl := execRxAbort_cases h
    have hclear : ∀ (_ : Chan) (k : Channel), (if k.running then k.clearChannel else k).thresh = k.thresh := by
      intro _ k
      split <;> rfl
    exact mapChans_keepsParameters hclear s
  | edgeLoad chm x =>
    obtain ⟨-, rfl⟩ | ⟨-, rfl⟩ := execEdgeLoad_cases h
    · exact raise_keepsParameters .busy s
    · exact mapNamed_keepsParameters chm (Channel.recordEdge_thresh x) s
  | decode chm =>
    obtain ⟨-, rfl⟩ | ⟨-, rfl⟩ := execDecode_cases h
    · exact raise_keepsParameters .busy s
    · exact mapNamed_keepsParameters chm Channel.decodeRx_thresh s

/-! ### Register accesses (20_memory.md R75, R76) -/

theorem busRead_keepsParameters (addr : Offset) (s : State) : KeepsParameters s (s.busRead addr) := by
  obtain ⟨-, hs⟩ | ⟨-, hs⟩ := busRead_cases addr s <;> rw [hs] <;> exact ⟨rfl, rfl⟩

theorem configWrite_of_busy (upd : State → State) {s : State} (h : s.busy = true) : s.configWrite upd = s.raise .busy := by
  simp [State.configWrite, h]

theorem configWrite_of_idle (upd : State → State) {s : State} (h : s.busy = false) : s.configWrite upd = upd s := by
  simp [State.configWrite, h]

theorem State.setThresh_ch0 (x : Half) (s : State) : s.setThresh .ch0 x = { s with ch0 := { s.ch0 with thresh := x } } :=
  rfl

theorem State.setThresh_ch1 (x : Half) (s : State) : s.setThresh .ch1 x = { s with ch1 := { s.ch1 with thresh := x } } :=
  rfl

/-- The registers that hold parameters. -/
def paramRegs : List Reg := [.margin, .calSettle, .replyTimeout, .thresh .ch0, .thresh .ch1]

/-- While BUSY a write to a parameter is rejected (60_exceptions.md R205). -/
theorem writeReg_param_of_busy {r : Reg} (hr : r ∈ paramRegs) (v : Word) {s : State} (hbusy : s.busy = true) :
    s.writeReg v r = s.raise .busy := by
  simp only [paramRegs, List.mem_cons, List.not_mem_nil, or_false] at hr
  rcases hr with rfl | rfl | rfl | rfl | rfl <;> simp only [State.writeReg, configWrite_of_busy _ hbusy]

/-- A write to any other register is none to a parameter. -/
theorem writeReg_keepsParameters_of_not_param {r : Reg} (hr : r ∉ paramRegs) (v : Word) (s : State) :
    KeepsParameters s (s.writeReg v r) := by
  cases r with
  | margin | calSettle | replyTimeout => simp [paramRegs] at hr
  | thresh c => cases c <;> simp [paramRegs] at hr
  | _ => exact ⟨rfl, rfl⟩

theorem writeReg_keepsParameters (v : Word) (r : Reg) {s : State} (hbusy : s.busy = true) :
    KeepsParameters s (s.writeReg v r) := by
  by_cases hr : r ∈ paramRegs
  · rw [writeReg_param_of_busy hr v hbusy]
    exact raise_keepsParameters .busy s
  · exact writeReg_keepsParameters_of_not_param hr v s

/-- An aligned write, named by the register it selects. -/
theorem deliver_busWrite_reg {addr : Offset} {r : Reg} (v : Word) (s : State) (haligned : misaligned addr = false)
    (hreg : regAt addr = r) (hr : r ≠ .cmd) : deliver (.busWrite addr v) s = .next (s.writeReg v r) := by
  subst hreg
  rw [deliver_busWrite, execBusWrite_of_reg v s haligned hr]

/-- The offsets of the parameters (R77). -/
theorem regAt_param :
    regAt 0x014 = .margin ∧ regAt 0x018 = .calSettle ∧ regAt 0x01C = .replyTimeout ∧
    regAt 0x044 = .thresh .ch0 ∧ regAt 0x084 = .thresh .ch1 := by
  simp [regAt, globalReg, chanReg]

theorem deliver_busWrite_param (v : Word) (s : State) :
    deliver (.busWrite 0x014 v) s = .next (s.writeReg v .margin) ∧
    deliver (.busWrite 0x018 v) s = .next (s.writeReg v .calSettle) ∧
    deliver (.busWrite 0x01C v) s = .next (s.writeReg v .replyTimeout) ∧
    deliver (.busWrite 0x044 v) s = .next (s.writeReg v (.thresh .ch0)) ∧
    deliver (.busWrite 0x084 v) s = .next (s.writeReg v (.thresh .ch1)) := by
  obtain ⟨hmargin, hsettle, htimeout, hthresh0, hthresh1⟩ := regAt_param
  exact ⟨deliver_busWrite_reg v s (by decide) hmargin (by simp),
    deliver_busWrite_reg v s (by decide) hsettle (by simp),
    deliver_busWrite_reg v s (by decide) htimeout (by simp),
    deliver_busWrite_reg v s (by decide) hthresh0 (by simp),
    deliver_busWrite_reg v s (by decide) hthresh1 (by simp)⟩

/-- While idle a write to a parameter takes the low half of the word (10_state.md R25 to R27, R36). -/
theorem writeReg_param_of_idle (v : Word) {s : State} (hidle : s.busy = false) :
    s.writeReg v .margin = { s with margin := v.extractLsb' 0 16 } ∧
    s.writeReg v .calSettle = { s with calSettle := v.extractLsb' 0 16 } ∧
    s.writeReg v .replyTimeout = { s with replyTimeout := v.extractLsb' 0 16 } ∧
    s.writeReg v (.thresh .ch0) = { s with ch0 := { s.ch0 with thresh := v.extractLsb' 0 16 } } ∧
    s.writeReg v (.thresh .ch1) = { s with ch1 := { s.ch1 with thresh := v.extractLsb' 0 16 } } := by
  have hlow : v.setWidth 16 = v.extractLsb' 0 16 := BitVec.setWidth_eq_extractLsb' (by decide)
  simp only [State.writeReg, configWrite_of_idle _ hidle, hlow, State.setThresh_ch0, State.setThresh_ch1, and_self]

/-! ### Events (60_exceptions.md R205) -/

/-- A word written to CMD keeps the parameters, unless it is RX.START, which can change thresholds. -/
theorem execWord_parameters {w : Word} {s t : State} (h : execWord w s = .next t) :
    KeepsParameters s t ∨ (t.configRegs = s.configRegs ∧ ∃ chm, decode w = .ok (.rxStart chm)) := by
  obtain ⟨e, -, hw⟩ | ⟨i, hdecode, hw⟩ := execWord_cases w s <;> rw [hw] at h
  · cases h
    exact .inl (raise_keepsParameters e s)
  · by_cases hi : ∃ chm, i = .rxStart chm
    · obtain ⟨chm, rfl⟩ := hi
      exact .inr ⟨execRxStart_configRegs h, chm, hdecode⟩
    · exact .inl (exec_keepsParameters (fun chm hrx => hi ⟨chm, hrx⟩) h)

theorem execBusWrite_parameters {addr : Offset} {v : Word} {s t : State} (hbusy : s.busy = true)
    (h : execBusWrite addr v s = .next t) :
    KeepsParameters s t ∨
      (t.configRegs = s.configRegs ∧ ∃ chm, Reference.commands (.busWrite addr v) (.rxStart chm)) := by
  obtain ⟨-, hw⟩ | ⟨-, hreg, hw⟩ | ⟨-, -, hw⟩ := execBusWrite_cases addr v s <;> rw [hw] at h
  · cases h
    exact .inl (raise_keepsParameters .misaligned s)
  · obtain rfl := offset_of_regAt_eq_cmd hreg
    refine (execWord_parameters h).imp_right ?_
    rintro ⟨hregs, chm, hdecode⟩
    exact ⟨hregs, chm, v, rfl, hdecode⟩
  · cases h
    exact .inl (writeReg_keepsParameters v _ hbusy)

/-- While BUSY an event other than reset keeps the parameters, unless it commands RX.START. -/
theorem deliver_parameters {e : Event} {s t : State} (hbusy : s.busy = true) (he : e ≠ .reset)
    (h : deliver e s = .next t) :
    KeepsParameters s t ∨ (t.configRegs = s.configRegs ∧ ∃ chm, Reference.commands e (.rxStart chm)) := by
  cases e with
  | busRead addr =>
    cases h
    exact .inl (busRead_keepsParameters addr s)
  | busWrite addr v => exact execBusWrite_parameters hbusy h
  | tick s0 s1 =>
    cases h
    exact .inl (tick_keepsParameters s0 s1 s)
  | reset => exact absurd rfl he

/-- The flag BUSY and its reading in the statements (10_state.md R28). -/
theorem busyNow_iff (s : State) : Reference.busyNow s ↔ s.busy = true := (busy_eq_true s).symm

/-- Settles O49: the writes by the register each offset selects, and what runs on by `deliver_parameters`. -/
theorem configurationWritesNeedIdle : Obligations.ConfigurationWritesNeedIdle := by
  unfold Obligations.ConfigurationWritesNeedIdle
  intro s v
  simp only [busyNow_iff, Bool.not_eq_true]
  obtain ⟨writeMargin, writeSettle, writeTimeout, writeThresh0, writeThresh1⟩ := deliver_busWrite_param v s
  refine ⟨?rejected, ?accepted, ?runsOn⟩
  case rejected =>
    intro hbusy addr haddr
    simp only [List.mem_cons, List.not_mem_nil, or_false] at haddr
    rcases haddr with rfl | rfl | rfl | rfl | rfl <;>
      simp only [writeMargin, writeSettle, writeTimeout, writeThresh0, writeThresh1] <;>
      exact congrArg _ (writeReg_param_of_busy (by simp [paramRegs]) v hbusy)
  case accepted =>
    intro hidle
    rw [writeMargin, writeSettle, writeTimeout, writeThresh0, writeThresh1]
    obtain ⟨hmargin, hsettle, htimeout, hthresh0, hthresh1⟩ := writeReg_param_of_idle v hidle
    exact ⟨congrArg _ hmargin, congrArg _ hsettle, congrArg _ htimeout, congrArg _ hthresh0, congrArg _ hthresh1⟩
  case runsOn =>
    intro e t hbusy he hnext
    obtain ⟨hregs, hthresh⟩ | ⟨hregs, hrx⟩ := deliver_parameters hbusy he hnext <;>
      obtain ⟨hmargin, hsettle, htimeout⟩ := (configRegs_eq_iff s t).mp hregs
    · exact ⟨hmargin, hsettle, htimeout, fun c => .inl ((thresholds_eq_iff s t).mp hthresh c)⟩
    · exact ⟨hmargin, hsettle, htimeout, fun _ => .inr hrx⟩

end Sys2Proof.Machine
end

section
/-! The command words the decoder accepts are the encodings of the well-formed commands (30_encoding.md R90 to R93): both
directions by the kinds of command, from the checks of 60_exceptions.md R203. -/

namespace Sys2Proof.Reference

open Sys2Proof Sys2Proof.Machine

/-! ### The fields of a packed word (30_encoding.md R90) -/

section
variable (op : BitVec 4) (chm : ChMask) (imm : Half)

@[simp] theorem opField_packFields : opField (packFields op chm imm) = op := by
  obtain ⟨hop, -⟩ := Laws.EncodedFields.fields_of_packFields op chm imm
  exact hop

@[simp] theorem rsvAField_packFields : rsvAField (packFields op chm imm) = 0 := by
  obtain ⟨-, hrsvA, -⟩ := Laws.EncodedFields.fields_of_packFields op chm imm
  exact hrsvA

@[simp] theorem rsvBField_packFields : rsvBField (packFields op chm imm) = 0 := by
  obtain ⟨-, -, hrsvB, -⟩ := Laws.EncodedFields.fields_of_packFields op chm imm
  exact hrsvB

@[simp] theorem chmField_packFields : chmField (packFields op chm imm) = chm := by
  obtain ⟨-, -, -, hchm, -⟩ := Laws.EncodedFields.fields_of_packFields op chm imm
  exact hchm

@[simp] theorem immField_packFields : immField (packFields op chm imm) = imm := by
  obtain ⟨-, -, -, -, himm⟩ := Laws.EncodedFields.fields_of_packFields op chm imm
  exact himm

end

/-- A word whose reserved fields are 0 is packed from its three other fields. -/
theorem packFields_fields {w : Word} (hrsvA : rsvAField w = 0) (hrsvB : rsvBField w = 0) :
    packFields (opField w) (chmField w) (immField w) = w := by
  apply word_ext_fields <;> simp [hrsvA, hrsvB]

/-! ### The byte operand (30_encoding.md R92) -/

@[simp] theorem immHigh_setWidth (b : Byte) : immHigh (b.setWidth 16) = 0 := by
  apply BitVec.eq_of_toNat_eq
  rw [immHigh_toNat, BitVec.toNat_setWidth]
  have hb := b.isLt
  simp only [BitVec.ofNat_eq_ofNat, BitVec.toNat_ofNat]
  omega

@[simp] theorem immByte_setWidth (b : Byte) : immByte (b.setWidth 16) = b := by
  apply BitVec.eq_of_toNat_eq
  rw [immByte, BitVec.extractLsb'_toNat, BitVec.toNat_setWidth, Nat.shiftRight_zero]
  have hb := b.isLt
  omega

/-- An operand with IMM[15:8] = 0 is its low byte. -/
theorem setWidth_immByte {imm : Half} (h : immHigh imm = 0) : (immByte imm).setWidth 16 = imm := by
  have hhigh : imm.toNat / 256 = 0 := by rw [← immHigh_toNat, h]; rfl
  apply BitVec.eq_of_toNat_eq
  rw [BitVec.toNat_setWidth, immByte, BitVec.extractLsb'_toNat, Nat.shiftRight_zero]
  omega

/-! ### From a command to its word -/

/-- A packed word that passes the checks is the command of its fields. -/
theorem decode_packFields {op : BitVec 4} {chm : ChMask} {imm : Half} {i : Instr}
    (hcheck : checkCmd (packFields op chm imm) = none) (hi : instrOf op chm imm = some i) :
    Sys2Proof.decode (packFields op chm imm) = .ok i :=
  decode_of_checkCmd_none hcheck (by simpa using hi)

/-- A channel command without IMM is accepted when it names a channel. -/
theorem checkCmd_packFields_channel {op : BitVec 4} (hop : op = 0x4#4 ∨ op = 0x5#4 ∨ op = 0x6#4 ∨ op = 0x9#4)
    {chm : ChMask} (hchm : chm ≠ 0) : checkCmd (packFields op chm 0) = none :=
  (checkCmd_eq_none_of_channel (by simpa using hop)).mpr (by simpa using hchm)

/-- Settles O1: the checks pass by the kind of command, and the OP selects the command's row. -/
theorem decodeEncodeRoundTrip : Obligations.DecodeEncodeRoundTrip := by
  unfold Obligations.DecodeEncodeRoundTrip
  intro i hi
  cases i with
  | nop | crcInit | rxAbort => exact decode_packFields ((checkCmd_eq_none_of_plain (by simp [opcode])).mpr (by simp)) rfl
  | crcByte b | crcSet b =>
    refine decode_packFields ((checkCmd_eq_none_of_byte (by simp [opcode])).mpr (by simp)) ?_
    simp [instrOf, opcode]
  | chReset chm | calStart chm | rxStart chm | decode chm =>
    exact decode_packFields (checkCmd_packFields_channel (by simp [opcode]) (by simpa [Instr.wellFormed] using hi)) rfl
  | edgeLoad chm t =>
    refine decode_packFields ((checkCmd_eq_none_of_edgeLoad (by simp [opcode])).mpr ?_) rfl
    simpa [Instr.wellFormed] using hi

/-! ### From an accepted word to its command -/

/-- An accepted word passes the checks, and its OP selects the command. -/
theorem decode_eq_ok_iff (w : Word) (i : Instr) :
    Sys2Proof.decode w = .ok i ↔ checkCmd w = none ∧ instrOf (opField w) (chmField w) (immField w) = some i := by
  refine ⟨fun h => ?_, fun ⟨hcheck, hi⟩ => decode_of_checkCmd_none hcheck hi⟩
  cases hcheck : checkCmd w with
  | some e => simp [decode_of_checkCmd_some hcheck] at h
  | none =>
    obtain ⟨r, hr, hop⟩ := exists_row_of_opField (opField_lt_of_checkCmd_none hcheck)
    have hi := instrOf_eq_command hr hop.symm
    rw [decode_of_checkCmd_none hcheck hi] at h
    cases h
    exact ⟨rfl, hi⟩

/-- An accepted command without operands. -/
theorem packFields_of_plain {w : Word} (hop : opField w = 0x0#4 ∨ opField w = 0x1#4 ∨ opField w = 0x7#4)
    (hcheck : checkCmd w = none) : packFields (opField w) 0 0 = w := by
  obtain ⟨hrsvA, hchm, hrsvB, himm⟩ := (checkCmd_eq_none_of_plain hop).mp hcheck
  simpa only [hchm, himm] using packFields_fields hrsvA hrsvB

/-- An accepted byte command. -/
theorem packFields_of_byte {w : Word} (hop : opField w = 0x2#4 ∨ opField w = 0x3#4) (hcheck : checkCmd w = none) :
    packFields (opField w) 0 ((immByte (immField w)).setWidth 16) = w := by
  obtain ⟨hrsvA, hchm, hrsvB, himm⟩ := (checkCmd_eq_none_of_byte hop).mp hcheck
  simpa only [hchm, setWidth_immByte himm] using packFields_fields hrsvA hrsvB

/-- An accepted channel command without IMM names a channel. -/
theorem packFields_of_channel {w : Word}
    (hop : opField w = 0x4#4 ∨ opField w = 0x5#4 ∨ opField w = 0x6#4 ∨ opField w = 0x9#4) (hcheck : checkCmd w = none) :
    chmField w ≠ 0 ∧ packFields (opField w) (chmField w) 0 = w := by
  obtain ⟨hrsvA, hrsvB, himm, hchm⟩ := (checkCmd_eq_none_of_channel hop).mp hcheck
  exact ⟨hchm, by simpa only [himm] using packFields_fields hrsvA hrsvB⟩

/-- The OP that selects a command is the command's own. -/
theorem opcode_of_instrOf {op : BitVec 4} {chm : ChMask} {imm : Half} {i : Instr} (h : instrOf op chm imm = some i) :
    op = opcode i ∧ instrOf (opcode i) chm imm = some i := by
  have hop : op = opcode i := by
    unfold instrOf at h
    split_ifs at h <;> cases h <;> assumption
  exact ⟨hop, hop ▸ h⟩

/-- Settles O2: by the command the OP selects, whose checks leave no other bit of the word open. -/
theorem acceptedWordIsItsEncoding : Obligations.AcceptedWordIsItsEncoding := by
  unfold Obligations.AcceptedWordIsItsEncoding
  intro w i h
  obtain ⟨hcheck, hi⟩ := (decode_eq_ok_iff w i).mp h
  obtain ⟨hop, hi⟩ := opcode_of_instrOf hi
  cases i with
  | nop | crcInit | rxAbort =>
    have hw := packFields_of_plain (by simp [hop, opcode]) hcheck
    rw [hop] at hw
    exact ⟨rfl, hw⟩
  | crcByte b | crcSet b =>
    have hw := packFields_of_byte (by simp [hop, opcode]) hcheck
    obtain rfl : immByte (immField w) = b := by simpa [instrOf, opcode] using hi
    rw [hop] at hw
    exact ⟨rfl, hw⟩
  | chReset chm | calStart chm | rxStart chm | decode chm =>
    obtain ⟨hchm, hw⟩ := packFields_of_channel (by simp [hop, opcode]) hcheck
    obtain rfl : chmField w = chm := by simpa [instrOf, opcode] using hi
    rw [hop] at hw
    exact ⟨by simpa [Instr.wellFormed] using hchm, hw⟩
  | edgeLoad chm t =>
    obtain ⟨hrsvA, hrsvB, hchm⟩ := (checkCmd_eq_none_of_edgeLoad (by simp [hop, opcode])).mp hcheck
    obtain ⟨rfl, rfl⟩ : chmField w = chm ∧ immField w = t := by simpa [instrOf, opcode] using hi
    have hw := packFields_fields hrsvA hrsvB
    rw [hop] at hw
    exact ⟨by simpa [Instr.wellFormed] using hchm, hw⟩

/-- A command the decoder answers names at least one channel if it names any set (R91). -/
theorem wellFormed_of_decode {w : Word} {i : Instr} (h : Sys2Proof.decode w = .ok i) : i.wellFormed = true := by
  obtain ⟨hi, -⟩ := acceptedWordIsItsEncoding w i h
  exact hi

/-- Settles O5: the words of R99 are the encodings of their commands, or fail the check R99 names. -/
theorem encodingExamplesDecode : Obligations.EncodingExamplesDecode := by
  unfold Obligations.EncodingExamplesDecode
  exact ⟨decodeEncodeRoundTrip (.crcByte 0x12) rfl, decodeEncodeRoundTrip (.chReset 3) rfl,
    decodeEncodeRoundTrip (.calStart 3) rfl, decodeEncodeRoundTrip (.rxStart 1) rfl,
    decodeEncodeRoundTrip (.edgeLoad 2 230) rfl, decodeEncodeRoundTrip (.decode 1) rfl,
    decode_of_checkCmd_some (by decide), decode_of_checkCmd_some (by decide), decode_of_checkCmd_some (by decide)⟩

/-- Settles O6: the write is the event `cmdWrite`, whose step runs the decoded command. -/
theorem stepRunsDecodedCommand : Obligations.StepRunsDecodedCommand := by
  unfold Obligations.StepRunsDecodedCommand
  intro s w i rest hinputs hdecode _
  have hs : s = { s with inputs := cmdWrite w :: rest } := by
    rw [cmdWrite, ← hinputs]
  rw [hs]
  exact step_cmdWrite hdecode s rest

end Sys2Proof.Reference
end

section
/-! What process_bits answers (43_bit_sync.md R180 to R185): the length of B, the padding after the last edge, and the
answer for one gap after the start edge. -/

namespace Sys2Proof.Reference

open Sys2Proof Sys2Proof.Machine

/-- process_bits over at least one edge: the walk failed and B stays as it is, or B is filled to the capacity. -/
theorem processBits_cases (e : Half) (rest : List Half) (cap : Nat) :
    let a := walkEdges cap true e rest BitAcc.start
    a.bits.length ≤ cap ∧
      ((a.err = .missingStart ∧ processBits (e :: rest) cap = ⟨a.bits, a.bits.length, .missingStart, a.zeros⟩) ∨
        (a.err = .none ∧ processBits (e :: rest) cap =
          ⟨padBits cap (decide (rest.length % 2 = 0)) a.bits, a.bits.length, .none, a.zeros⟩)) := by
  intro a
  refine ⟨walkEdges_length cap true e rest BitAcc.start (Nat.zero_le cap), ?_⟩
  cases herr : a.err with
  | missingStart => exact .inl ⟨rfl, processBits_of_missingStart rfl herr⟩
  | none => exact .inr ⟨rfl, herr ▸ processBits_of_padded (a := a) rfl (by simp [herr])⟩

/-- Past the bits it is given, the filled list holds the level of the padding (R185). -/
theorem padBits_getElem? {cap : Nat} (lf : Bool) {bits : List Bool} {i : Nat} (hi : bits.length ≤ i) (hcap : i < cap) :
    (padBits cap lf bits)[i]? = some lf := by
  rw [padBits, List.getElem?_append_right hi]
  exact List.getElem?_replicate_of_lt (by omega)

/-- Settles O25: by whether there is an edge, and then by whether the walk failed. -/
theorem processBitsPadsToCapacity : Obligations.ProcessBitsPadsToCapacity := by
  unfold Obligations.ProcessBitsPadsToCapacity
  intro es cap
  cases es with
  | nil => exact ⟨le_rfl, Nat.zero_le cap, fun _ => rfl, fun _ => rfl, fun h => absurd rfl h⟩
  | cons e rest =>
    obtain ⟨hlen, ⟨-, hr⟩ | ⟨-, hr⟩⟩ := processBits_cases e rest cap <;> rw [hr]
    case inl => exact ⟨le_rfl, hlen, fun _ => rfl, by simp, by simp⟩
    case inr =>
      have hpad := padBits_length (decide (rest.length % 2 = 0)) hlen
      refine ⟨hpad.symm ▸ hlen, hpad.le, by simp, by simp, fun _ _ => ⟨hpad, fun i hi hcap => ?_⟩⟩
      rw [padBits_getElem? _ hi hcap, List.length_cons, Option.some_inj, decide_eq_decide]
      omega

/-- No more bits come from gaps than fit the capacity (R180). -/
theorem processBits_nb_le (es : List Half) (cap : Nat) : (processBits es cap).nb ≤ cap := by
  obtain ⟨hnb, hbits, -⟩ := processBitsPadsToCapacity es cap
  exact hnb.trans hbits

/-! ### One gap, by its place in the octet group (R183) -/

/-- At an octet boundary a gap of n bit periods is the start bit and n - 1 data bits. -/
theorem gapStep_of_boundary {cap n : Nat} (lvl : Bool) {g : Half} {a : BitAcc} (hpos : a.pos = 0) (hn : gapBits g = n)
    (h1 : 1 ≤ n) (h9 : n ≤ 9) (hroom : a.bits.length + (n - 1) ≤ cap) :
    gapStep cap lvl g a =
      { a with bits := a.bits ++ List.replicate (n - 1) lvl, pos := if n = 9 then 0 else n } := by
  have hrun := gapStep_of_run cap lvl g a (by omega) (by rw [if_pos hpos]; omega)
  have hk : min (n - 1) (min (9 - 1) (cap - a.bits.length)) = n - 1 := by omega
  have hend : 1 + (n - 1) = n := by omega
  simpa only [hpos, hn, if_true, hk, hend] using hrun

/-- Within an octet group a gap of n bit periods that fits the group is n data bits. -/
theorem gapStep_of_within {cap n : Nat} (lvl : Bool) {g : Half} {a : BitAcc} (hpos : a.pos ≠ 0) (hn : gapBits g = n)
    (h1 : 1 ≤ n) (h9 : a.pos + n ≤ 9) (hroom : a.bits.length + n ≤ cap) :
    gapStep cap lvl g a =
      { a with bits := a.bits ++ List.replicate n lvl, pos := if a.pos + n = 9 then 0 else a.pos + n } := by
  have hrun := gapStep_of_run cap lvl g a (by omega) (by rw [if_neg hpos]; omega)
  have hk : min n (min (9 - a.pos) (cap - a.bits.length)) = n := by omega
  simpa only [if_neg hpos, hn, hk] using hrun

/-! ### One gap after the start edge (R183, R184) -/

/-- The walk over two edges is one pass of the loop's body. -/
theorem walkEdges_two {cap : Nat} (hcap : cap ≠ 0) (e e' : Half) :
    walkEdges cap true e [e'] BitAcc.start = gapStep cap true (e' - e) BitAcc.start :=
  walkEdges_of_room (a := ⟨[], 0, 0⟩) (by simpa using hcap.symm) true e e' []

/-- Settles O26: by what the one gap does to an empty B at an octet boundary. -/
theorem firstGapDecodes : Obligations.FirstGapDecodes := by
  unfold Obligations.FirstGapDecodes
  intro e e' n r
  have hwalk := walkEdges_two (cap := 128) (by decide) e e'
  refine ⟨?glitch, ?run, ?missing⟩
  case glitch =>
    intro hn
    rw [gapStep_of_zero _ _ _ _ hn] at hwalk
    exact processBits_of_padded hwalk (by simp [BitAcc.start])
  case run =>
    intro h1 h9
    have hroom : BitAcc.start.bits.length + (n - 1) ≤ 128 := by
      simp only [BitAcc.start, List.length_nil]
      omega
    have hpad : 128 - (n - 1) = 129 - n := by omega
    rw [gapStep_of_boundary true rfl rfl h1 h9 hroom] at hwalk
    rw [show r = _ from processBits_of_padded hwalk (by simp [BitAcc.start])]
    simp only [BitAcc.start, padBits, List.nil_append, List.length_replicate, ← hpad]
    rfl
  case missing =>
    intro h10
    rw [gapStep_of_long 128 true (e' - e) BitAcc.start (show 8 < n - 1 by omega)] at hwalk
    exact processBits_of_missingStart hwalk rfl

end Sys2Proof.Reference
end

section
/-! What DecodeRx, Finalize, EndCheck and HeaderDecode write (43_bit_sync.md R186 to R188, 42_edge_detector.md R157 and
R158), in the words of the reference decoder. -/

namespace Sys2Proof.Reference

open Sys2Proof Sys2Proof.Machine

/-! ### The declared length (10_state.md R45) -/

theorem len_toNat (k : Channel) : k.len.toNat = k.hdr.toNat % 16 := by
  rw [Channel.len, BitVec.extractLsb'_toNat, Nat.shiftRight_zero]

theorem decl_len (k : Channel) : decl k.len = declaredOctets k.hdr := by
  have hzero : k.len = 0 ↔ k.hdr.toNat % 16 = 0 := by
    rw [← len_toNat, ← BitVec.toNat_inj]
    rfl
  simp only [decl, declaredOctets, hzero, len_toNat]

theorem declaredOctets_le (h : Byte) : declaredOctets h ≤ 16 := by
  unfold declaredOctets
  split <;> omega

theorem declared_toNat (k : Channel) : k.declared.toNat = if k.hdrOk then declaredOctets k.hdr else 0 := by
  have hle := declaredOctets_le k.hdr
  unfold Channel.declared
  rw [decl_len]
  split
  · exact Nat.mod_eq_of_lt (by omega)
  · rfl

/-! ### The result registers (43_bit_sync.md R186, R187) -/

/-- An octet of RXB after DecodeRx is cut out of B. -/
theorem decodeRx_octet (k : Channel) {j : Nat} (hj : j < 16) :
    k.decodeRx.octet j = octetAt (processBits k.edgeList 128).bits j := by
  simp [Channel.octet, hj, Config.capBits, Config.maxOctets]

theorem edgeCnt_pos_iff (k : Channel) : 0 < k.edgeCnt.toNat ↔ k.edgeCnt ≠ 0 := by
  rw [Nat.pos_iff_ne_zero, Ne, Ne, ← BitVec.toNat_inj]
  rfl

/-- DecodeRx writes the results of the recorded edges and nothing else. -/
theorem resultsDecoded_decodeRx (k : Channel) : resultsDecoded k k.decodeRx := by
  have hnb : (processBits k.edgeList 128).nb ≤ 128 := processBits_nb_le _ _
  rw [resultsDecoded, decodeBits_eq_processBits]
  refine ⟨rfl, ?octets, ?nbits, ?failed, ?zeros, ?zeroRun, ?valid, declared_toNat k⟩
  case octets =>
    intro j b hj hb
    rw [decodeRx_octet k hj, octetAt_getLsbD _ _ _ hb]
  case nbits => exact Nat.mod_eq_of_lt (Nat.lt_of_le_of_lt hnb (by decide))
  case failed => exact decide_eq_true_iff.symm
  case zeros => exact Nat.mod_eq_of_lt (by omega)
  case zeroRun => exact decide_eq_true_iff
  case valid => rw [← edgeCnt_pos_iff]; exact decide_eq_true_iff

/-- Finalize is DecodeRx on the channel made DONE, for DecodeRx does not read PHASE. -/
theorem finalized_finalize (k : Channel) : finalized k k.finalize :=
  resultsDecoded_decodeRx { k with phase := .done }

theorem endCheck_of_end {k : Channel} (h : k.endIdx ≤ k.sampleIdx) : k.endCheck = k.finalize := if_pos h

theorem endCheck_of_before {k : Channel} (h : k.sampleIdx < k.endIdx) : k.endCheck = k := if_neg (Nat.not_le.mpr h)

/-- Settles O57: EndCheck is Finalize from END_IDX on, and nothing before. -/
theorem endCheckFinalizesAtEndIdx : Obligations.EndCheckFinalizesAtEndIdx := by
  unfold Obligations.EndCheckFinalizesAtEndIdx
  intro k
  exact ⟨finalized_finalize k, fun h => endCheck_of_end h ▸ finalized_finalize k, endCheck_of_before⟩

/-! ### The header pass (42_edge_detector.md R157) -/

/-- The table of R157 is the end-index formula. -/
theorem endIdxTable_getElem? : ∀ len : BitVec 4, endIdxTable[len.toNat]? = some (endIdxFor (decl len)) := by
  decide

theorem endIdxFor_decl_le (len : BitVec 4) : endIdxFor (decl len) ≤ 1590 := by
  have hle := decl_le len
  calc endIdxFor (decl len) ≤ endIdxFor 16 := by unfold endIdxFor; gcongr
    _ = 1590 := rfl

/-- The formula's value fits END_IDX. -/
theorem toNat_endIdx (len : BitVec 4) : (BitVec.ofNat 16 (endIdxFor (decl len))).toNat = endIdxFor (decl len) :=
  Nat.mod_eq_of_lt (Nat.lt_of_le_of_lt (endIdxFor_decl_le len) (by decide))

/-- A failed header pass. -/
theorem headerDecode_of_missingStart {k : Channel} (h : (processBits k.edgeList 8).err = .missingStart) :
    k.headerDecode = { k with hdrRead := true, hdrOk := false } := by
  simp [Channel.headerDecode, h]

/-- A header pass without failure: the octet, and the window of the length it declares. -/
theorem headerDecode_of_ok {k : Channel} (h : (processBits k.edgeList 8).err = .none) :
    k.headerDecode =
      { k with
        hdrRead := true, hdrOk := true, hdr := octetAt (processBits k.edgeList 8).bits 0
        endIdx := BitVec.ofNat 16 (endIdxFor (decl ((octetAt (processBits k.edgeList 8).bits 0).extractLsb' 0 4))) } := by
  simp [Channel.headerDecode, h, Channel.len]

/-- Settles O34: by whether the one-octet pass fails. -/
theorem headerDecodeSetsWindow : Obligations.HeaderDecodeSetsWindow := by
  unfold Obligations.HeaderDecodeSetsWindow
  intro k
  rw [headerDecoded, decodeBits_eq_processBits]
  cases herr : (processBits k.edgeList 8).err with
  | missingStart => exact ⟨fun _ => headerDecode_of_missingStart herr, by simp⟩
  | none =>
    refine ⟨by simp, fun _ => ?_⟩
    rw [headerDecode_of_ok herr]
    refine ⟨rfl, fun b hb => ?bits, ?window⟩
    case bits => simpa using octetAt_getLsbD (processBits k.edgeList 8).bits 0 b hb
    case window =>
      have htable := endIdxTable_getElem? ((octetAt (processBits k.edgeList 8).bits 0).extractLsb' 0 4)
      rw [BitVec.extractLsb'_toNat, Nat.shiftRight_zero] at htable
      exact htable.trans (congrArg some (toNat_endIdx _).symm)

end Sys2Proof.Reference
end

section
/-! The parts of a WAIT and of a STARTED tick (42_edge_detector.md R153 to R158): the sample's crossing, the header check
and the end of the tick, each in the words of the reference relations. -/

namespace Sys2Proof.Reference

open Sys2Proof Sys2Proof.Machine

/-- The polarity of a sample as the statements write it (R153). -/
theorem hi_eq_decide (k : Channel) (x : Half) : k.hi x = decide (k.thresh < x) := rfl

/-! ### The crossing (R154 to R156) -/

/-- A sample above THRESH in WAIT: the edge is recorded in the channel that has started. -/
theorem waitSample_of_high {k : Channel} {x : Half} (h : k.hi x = true) :
    k.waitSample x =
      Channel.recordEdge k.sampleIdx { k with startIdx := k.sampleIdx, prev := true, phase := .started, idleCnt := 0 } := by
  unfold Channel.waitSample
  rw [if_pos h]
  unfold Channel.recordEdge
  split <;> rfl

theorem waitSample_of_low {k : Channel} {x : Half} (h : k.hi x = false) :
    k.waitSample x = { k with idleCnt := satInc k.idleCnt } := by
  simp [Channel.waitSample, h]

/-- A change of polarity in STARTED: the edge is recorded in the channel with the new polarity. -/
theorem startedSample_of_crossing {k : Channel} {x : Half} (h : k.prev ≠ k.hi x) :
    k.startedSample x = Channel.recordEdge k.sampleIdx { k with prev := k.hi x, idleCnt := 0 } := by
  unfold Channel.startedSample
  rw [if_pos h.symm]
  unfold Channel.recordEdge
  split <;> rfl

theorem startedSample_of_level {k : Channel} {x : Half} (h : k.prev = k.hi x) :
    k.startedSample x = { k with idleCnt := satInc k.idleCnt } := by
  simp [Channel.startedSample, h]

theorem edgeRecorded_recordEdge {k : Channel} (t : Half) (h : k.edgeCnt.toNat < 160) :
    edgeRecorded t k (k.recordEdge t) := by
  refine ⟨?frame, recordEdge_edgeCnt k t h, recordEdge_edgeList k t h, recordEdge_edges k t h⟩
  case frame => rw [recordEdge_of_room k t h]

theorem idleCounted_satInc (k : Channel) : idleCounted k { k with idleCnt := satInc k.idleCnt } :=
  ⟨rfl, satInc_toNat k.idleCnt⟩

/-! ### The end of the tick (R155, R158) -/

theorem advance_of_before {k : Channel} (h : k.sampleIdx + 1 < k.endIdx) :
    k.advance = { k with sampleIdx := k.sampleIdx + 1 } := endCheck_of_before h

theorem advance_of_end {k : Channel} (h : k.endIdx ≤ k.sampleIdx + 1) :
    k.advance = Channel.finalize { k with sampleIdx := k.sampleIdx + 1 } := endCheck_of_end h

/-- The index advances, and the channel is finalized when it has reached END_IDX. -/
theorem advance_cases (k : Channel) :
    (k.sampleIdx + 1 < k.endIdx ∧ k.advance = { k with sampleIdx := k.sampleIdx + 1 }) ∨
    (k.endIdx ≤ k.sampleIdx + 1 ∧ k.advance = Channel.finalize { k with sampleIdx := k.sampleIdx + 1 }) := by
  by_cases h : k.endIdx ≤ k.sampleIdx + 1
  · exact .inr ⟨h, advance_of_end h⟩
  · exact .inl ⟨BitVec.not_le.mp h, advance_of_before (BitVec.not_le.mp h)⟩

theorem indexAdvanced_advance (k : Channel) : indexAdvanced k k.advance := by
  refine ⟨advance_of_before, fun h => ?_⟩
  rw [advance_of_end h]
  exact finalized_finalize _

theorem startedTickEnded_advance (k : Channel) : startedTickEnded k k.headerCheck.advance := by
  refine ⟨k.headerCheck, fun h => ?_, fun h => if_neg h, indexAdvanced_advance _⟩
  rw [show k.headerCheck = k.headerDecode from if_pos h]
  exact headerDecodeSetsWindow k

/-- Settles O31: the crossing half of the tick by the polarity of the sample, then the end of the tick. -/
theorem waitTickFindsStartEdge : Obligations.WaitTickFindsStartEdge := by
  unfold Obligations.WaitTickFindsStartEdge
  intro k b x hwait hempty
  rw [tick_of_wait b x k hwait]
  constructor
  case left =>
    intro hx
    have hrecorded : edgeRecorded k.sampleIdx
        { k with startIdx := k.sampleIdx, prev := true, phase := .started, idleCnt := 0 } (k.waitSample x) := by
      rw [waitSample_of_high (decide_eq_true hx)]
      exact edgeRecorded_recordEdge k.sampleIdx (by simp [hempty])
    refine ⟨k.waitSample x, hrecorded, ?_, indexAdvanced_advance _⟩
    obtain ⟨-, -, hlist, -⟩ := hrecorded
    rw [hlist, edgeList_of_none _ (by exact hempty), List.nil_append]
  case right =>
    intro hx
    rw [waitSample_of_low (decide_eq_false hx)]
    exact ⟨_, idleCounted_satInc k, indexAdvanced_advance _⟩

/-- A STARTED tick without a change of polarity, whether or not E has room. -/
theorem startedTick_of_level {k : Channel} (b : Bool) {x : Half} (hstarted : k.phase = .started)
    (h : k.prev = decide (k.thresh < x)) : ∃ k1, idleCounted k k1 ∧ startedTickEnded k1 (k.tick b x) := by
  rw [tick_of_started b x k hstarted, startedSample_of_level h]
  exact ⟨_, idleCounted_satInc k, startedTickEnded_advance _⟩

/-- Settles O32: a crossing records an edge, for E has room. -/
theorem startedTickRecordsCrossings : Obligations.StartedTickRecordsCrossings := by
  unfold Obligations.StartedTickRecordsCrossings
  intro k b x hstarted hroom
  refine ⟨fun hcross => ?_, startedTick_of_level b hstarted⟩
  rw [tick_of_started b x k hstarted, startedSample_of_crossing hcross]
  exact ⟨_, edgeRecorded_recordEdge _ hroom, startedTickEnded_advance _⟩

/-- Settles O33: a crossing only sets EDGE_OVF, for E is full. -/
theorem fullBufferDropsEdge : Obligations.FullBufferDropsEdge := by
  unfold Obligations.FullBufferDropsEdge
  intro k b x hstarted hfull
  refine ⟨fun hcross => ?_, startedTick_of_level b hstarted⟩
  have hcnt : 160 ≤ k.edgeCnt.toNat := by simp [hfull]
  rw [tick_of_started b x k hstarted, startedSample_of_crossing hcross,
    recordEdge_of_full { k with prev := k.hi x, idleCnt := 0 } _ hcnt]
  exact startedTickEnded_advance _

end Sys2Proof.Reference
end

section
/-! What ChannelTick and the completion leave of a channel (42_edge_detector.md R150 to R160): the calibration registers,
and what can become of PHASE. -/

namespace Sys2Proof.Machine

open Sys2Proof

/-! ### The registers of calibration (10_state.md R37, R38) -/

/-- CAL_SUM, CAL_CNT, SETTLE_LEFT and CAL_ERR. -/
def Channel.calRegs (k : Channel) : Word × Half × Half × Bool := (k.calSum, k.calCnt, k.settleLeft, k.calErr)

@[simp] theorem Channel.recordEdge_calRegs (t : Half) (k : Channel) : (k.recordEdge t).calRegs = k.calRegs := by
  rw [recordEdge_frame]; rfl

@[simp] theorem Channel.headerCheck_calRegs (k : Channel) : k.headerCheck.calRegs = k.calRegs := by
  obtain ⟨-, -, hk⟩ | ⟨-, hk⟩ := headerCheck_cases k <;> rw [hk]
  rw [headerDecode_frame]; rfl

@[simp] theorem Channel.advance_calRegs (k : Channel) : k.advance.calRegs = k.calRegs := by
  obtain ⟨-, hk⟩ | ⟨-, hk⟩ := Reference.advance_cases k <;> rw [hk] <;> rfl

@[simp] theorem Channel.waitSample_calRegs (x : Half) (k : Channel) : (k.waitSample x).calRegs = k.calRegs := by
  obtain ⟨-, hk⟩ | ⟨-, hk⟩ := waitSample_cases x k <;> rw [hk]
  · exact Channel.recordEdge_calRegs _ _
  · rfl

@[simp] theorem Channel.startedSample_calRegs (x : Half) (k : Channel) : (k.startedSample x).calRegs = k.calRegs := by
  obtain ⟨-, hk⟩ | ⟨-, hk⟩ := startedSample_cases x k <;> rw [hk]
  · exact Channel.recordEdge_calRegs _ _
  · rfl

@[simp] theorem Channel.complete_calRegs (k : Channel) : k.complete.calRegs = k.calRegs := by
  obtain ⟨-, hk⟩ | ⟨-, hk⟩ := complete_cases k <;> rw [hk]
  rfl

/-- Only a calibrating channel's tick changes them. -/
theorem tick_calRegs {k : Channel} (b : Bool) (x : Half) (h : k.phase ≠ .cal) : (k.tick b x).calRegs = k.calRegs := by
  cases hphase : k.phase with
  | idle => rw [tick_of_idle b x k hphase]
  | cal => exact absurd hphase h
  | wait => rw [tick_of_wait b x k hphase]; simp
  | started => rw [tick_of_started b x k hphase]; simp
  | done =>
    rw [tick_of_done b x k hphase]
    split <;> rfl

theorem calErr_of_calRegs {k k' : Channel} (h : k'.calRegs = k.calRegs) : k'.calErr = k.calErr :=
  (congrArg (fun r => r.2.2.2) h :)

/-- No tick writes CAL_ERR, a calibrating channel's neither (R152). -/
theorem tick_calErr (b : Bool) (x : Half) (k : Channel) : (k.tick b x).calErr = k.calErr := by
  by_cases hcal : k.phase = .cal
  · rw [tick_of_cal b x k hcal]
    obtain ⟨-, hk⟩ | ⟨-, -, hk⟩ | ⟨-, -, hk⟩ := tickCal_cases x k <;> rw [hk]
  · exact calErr_of_calRegs (tick_calRegs b x hcal)

/-! ### PHASE (10_state.md R35) -/

@[simp] theorem Channel.recordEdge_phase (t : Half) (k : Channel) : (k.recordEdge t).phase = k.phase := by
  rw [recordEdge_frame]

@[simp] theorem Channel.headerCheck_phase (k : Channel) : k.headerCheck.phase = k.phase := by
  obtain ⟨-, -, hk⟩ | ⟨-, hk⟩ := headerCheck_cases k <;> rw [hk]
  rw [headerDecode_frame]

@[simp] theorem Channel.startedSample_phase (x : Half) (k : Channel) : (k.startedSample x).phase = k.phase := by
  obtain ⟨-, hk⟩ | ⟨-, hk⟩ := startedSample_cases x k <;> simp [hk]

theorem waitSample_phase_cases (x : Half) (k : Channel) :
    (k.waitSample x).phase = .started ∨ (k.waitSample x).phase = k.phase := by
  obtain ⟨-, hk⟩ | ⟨-, hk⟩ := waitSample_cases x k <;> simp [hk]

theorem advance_phase_cases (k : Channel) : k.advance.phase = .done ∨ k.advance.phase = k.phase := by
  obtain ⟨-, hk⟩ | ⟨-, hk⟩ := Reference.advance_cases k <;> rw [hk]
  · exact .inr rfl
  · exact .inl rfl

@[simp] theorem complete_phase (k : Channel) : k.complete.phase = .done := by
  obtain ⟨hk, he⟩ | ⟨-, he⟩ := complete_cases k <;> rw [he]
  · exact hk
  · rfl

/-- What a tick can make of PHASE. -/
theorem tick_phase_cases (b : Bool) (x : Half) (k : Channel) :
    (k.tick b x).phase = k.phase ∨ (k.phase = .wait ∧ (k.tick b x).phase = .started) ∨
      ((k.phase = .wait ∨ k.phase = .started) ∧ (k.tick b x).phase = .done) := by
  cases hphase : k.phase with
  | idle => rw [tick_of_idle b x k hphase]; exact .inl hphase
  | cal =>
    rw [tick_of_cal b x k hphase]
    obtain ⟨-, hk⟩ | ⟨-, -, hk⟩ | ⟨-, -, hk⟩ := tickCal_cases x k <;> rw [hk] <;> exact .inl hphase
  | wait =>
    rw [tick_of_wait b x k hphase]
    rcases advance_phase_cases (k.waitSample x) with hdone | hsame
    · exact .inr (.inr ⟨.inl rfl, hdone⟩)
    · rcases waitSample_phase_cases x k with hstarted | hwait
      · exact .inr (.inl ⟨rfl, hsame.trans hstarted⟩)
      · exact .inl (hsame.trans (hwait.trans hphase))
  | started =>
    rw [tick_of_started b x k hphase]
    rcases advance_phase_cases (k.startedSample x).headerCheck with hdone | hsame
    · exact .inr (.inr ⟨.inr rfl, hdone⟩)
    · exact .inl (hsame.trans (by simp [hphase]))
  | done =>
    rw [tick_of_done b x k hphase]
    split <;> exact .inl hphase

/-! ### A TICK, one channel at a time (R150, R160) -/

/-- Two states with the same registers of both channels. -/
theorem State.ch_congr {s t : State} (h0 : t.ch0 = s.ch0) (h1 : t.ch1 = s.ch1) (c : Chan) : t.ch c = s.ch c := by
  cases c
  · exact h0
  · exact h1

/-- CompletionCheck completes the channels of a transaction that ends, and leaves any other. -/
theorem completionCheck_ch (s : State) (c : Chan) :
    s.completionCheck.ch c = if s.completes && named s.txnMask c then (s.ch c).complete else s.ch c := by
  rcases completionCheck_cases s with ⟨hends, ht⟩ | ⟨hgoes, ht⟩ <;> rw [ht]
  · rw [hends, Bool.true_and, ← State.mapNamed_ch]
    exact State.ch_congr rfl rfl c
  · rw [hgoes]; rfl

/-- A channel of a TICK has its ChannelTick, or the transaction ended and its ChannelTick is completed. -/
theorem tick_ch_cases (s0 s1 : Half) (s : State) (c : Chan) :
    let k := (s.ch c).tick (s.inTxn c) (sampleOf s0 s1 c)
    (s.tick s0 s1).ch c = k ∨ (s.inTxn c = true ∧ (s.tick s0 s1).ch c = k.complete) := by
  intro k
  have hk : (s.tickChannels s0 s1).ch c = k := tickChannels_ch s0 s1 s c
  rw [State.tick, completionCheck_ch, hk]
  split
  · next hc =>
    obtain ⟨hends, hnamed⟩ := Bool.and_eq_true_iff.mp hc
    obtain ⟨hactive, -⟩ := Bool.and_eq_true_iff.mp hends
    exact .inr ⟨(inTxn_eq_true s c).mpr ⟨hactive, hnamed⟩, rfl⟩
  · exact .inl rfl

/-- The fields a TICK can write. -/
theorem tick_frame (s0 s1 : Half) (s : State) :
    s.tick s0 s1 =
      { s with
        ch0 := (s.tick s0 s1).ch0, ch1 := (s.tick s0 s1).ch1, txnActive := (s.tick s0 s1).txnActive
        txnMask := (s.tick s0 s1).txnMask, done := (s.tick s0 s1).done } := by
  unfold State.tick
  rcases completionCheck_cases (s.tickChannels s0 s1) with ⟨-, ht⟩ | ⟨-, ht⟩ <;> rw [ht] <;> rfl

theorem tick_calErr_state (s0 s1 : Half) (s : State) (c : Chan) : ((s.tick s0 s1).ch c).calErr = (s.ch c).calErr := by
  rcases tick_ch_cases s0 s1 s c with ht | ⟨-, ht⟩ <;> rw [ht]
  · exact tick_calErr _ _ _
  · exact (calErr_of_calRegs (Channel.complete_calRegs _)).trans (tick_calErr _ _ _)

/-- Settles O36: the frame by whether the transaction ends, each channel by its own ChannelTick. -/
theorem tickFrame : Obligations.TickFrame := by
  unfold Obligations.TickFrame
  intro s s0 s1
  refine ⟨s.tick s0 s1, rfl, tick_frame s0 s1 s, fun c => ⟨?thresh, tick_calErr_state s0 s1 s c⟩, fun c hout => ?outside,
    rfl, tickChannels_ch s0 s1 s⟩
  case thresh =>
    obtain ⟨-, hthresh⟩ := tick_keepsParameters s0 s1 s
    exact (thresholds_eq_iff _ _).mp hthresh c
  case outside =>
    rcases tick_ch_cases s0 s1 s c with ht | ⟨hin, -⟩
    · rw [ht, hout]
    · simp [hout] at hin

/-! ### Rows of TICKs -/

@[simp] theorem runTicks_nil (s : State) : runTicks [] s = s := rfl

@[simp] theorem runTicks_cons (x : Half × Half) (xs : List (Half × Half)) (s : State) :
    runTicks (x :: xs) s = runTicks xs (s.tick x.1 x.2) := rfl

theorem completionCheck_raise (e : ErrCode) (s : State) : (s.raise e).completionCheck = s.completionCheck.raise e := by
  have hends : (s.raise e).completes = s.completes := rfl
  unfold State.completionCheck
  rw [hends]
  split <;> rfl

/-- A TICK neither reads nor writes ERR and LAST_ERR. -/
theorem tick_raise (e : ErrCode) (s0 s1 : Half) (s : State) : (s.raise e).tick s0 s1 = (s.tick s0 s1).raise e :=
  completionCheck_raise e (s.tickChannels s0 s1)

/-- Settles O52: raising a CmdError commutes with each TICK. -/
theorem errorLeavesTicksAlone : Obligations.ErrorLeavesTicksAlone := by
  unfold Obligations.ErrorLeavesTicksAlone
  intro xs s e
  show runTicks xs (s.raise e) = (runTicks xs s).raise e
  induction xs generalizing s with
  | nil => rfl
  | cons x xs ih => rw [runTicks_cons, runTicks_cons, tick_raise, ih]

/-! ### A channel without a threshold (10_state.md R36) -/

/-- Finalize keeps the recorded edges. -/
theorem complete_edges (k : Channel) : k.complete.edges = k.edges ∧ k.complete.edgeCnt = k.edgeCnt := by
  obtain ⟨-, hk⟩ | ⟨-, hk⟩ := complete_cases k <;> rw [hk] <;> exact ⟨rfl, rfl⟩

theorem advance_edges (k : Channel) : k.advance.edges = k.edges ∧ k.advance.edgeCnt = k.edgeCnt := by
  obtain ⟨-, hk⟩ | ⟨-, hk⟩ := Reference.advance_cases k <;> rw [hk] <;> exact ⟨rfl, rfl⟩

/-- With every sample low no channel starts, and one that has not started records no edge. -/
theorem tick_of_uncalibrated {k : Channel} (b : Bool) (x : Half) (hthresh : k.thresh = 0xFFFF) (hphase : k.phase ≠ .started) :
    (k.tick b x).phase ≠ .started ∧ (k.tick b x).edges = k.edges ∧ (k.tick b x).edgeCnt = k.edgeCnt := by
  obtain ⟨-, -, hlow⟩ := polarityIsStrict k x
  cases hp : k.phase with
  | idle => rw [tick_of_idle b x k hp]; exact ⟨hphase, rfl, rfl⟩
  | cal =>
    rw [tick_of_cal b x k hp]
    obtain ⟨-, hk⟩ | ⟨-, -, hk⟩ | ⟨-, -, hk⟩ := tickCal_cases x k <;> rw [hk] <;> exact ⟨hphase, rfl, rfl⟩
  | wait =>
    rw [tick_of_wait b x k hp, Reference.waitSample_of_low (hlow hthresh)]
    refine ⟨?_, advance_edges _⟩
    rcases advance_phase_cases { k with idleCnt := satInc k.idleCnt } with h | h <;> rw [h]
    · simp
    · exact hphase
  | started => exact absurd hp hphase
  | done =>
    rw [tick_of_done b x k hp]
    split <;> exact ⟨hphase, rfl, rfl⟩

/-- Settles O38: along the row, with THRESH kept by every TICK. -/
theorem uncalibratedChannelNeverStarts : Obligations.UncalibratedChannelNeverStarts := by
  unfold Obligations.UncalibratedChannelNeverStarts
  intro xs
  induction xs with
  | nil => exact fun s c _ hphase => ⟨hphase, rfl, rfl⟩
  | cons x xs ih =>
    intro s c hthresh hphase
    obtain ⟨hphase', hedges, hcnt⟩ := tick_of_uncalibrated (s.inTxn c) (sampleOf x.1 x.2 c) hthresh hphase
    have hthresh' : ((s.tick x.1 x.2).ch c).thresh = 0xFFFF := by
      obtain ⟨-, hkept⟩ := tick_keepsParameters x.1 x.2 s
      rw [(thresholds_eq_iff _ _).mp hkept c, hthresh]
    have htick : ((s.tick x.1 x.2).ch c).phase ≠ .started ∧ ((s.tick x.1 x.2).ch c).edges = (s.ch c).edges ∧
        ((s.tick x.1 x.2).ch c).edgeCnt = (s.ch c).edgeCnt := by
      rcases tick_ch_cases x.1 x.2 s c with ht | ⟨-, ht⟩ <;> rw [ht]
      · exact ⟨hphase', hedges, hcnt⟩
      · obtain ⟨hedges', hcnt'⟩ := complete_edges ((s.ch c).tick (s.inTxn c) (sampleOf x.1 x.2 c))
        exact ⟨by simp, hedges'.trans hedges, hcnt'.trans hcnt⟩
    obtain ⟨hphase1, hedges1, hcnt1⟩ := htick
    obtain ⟨hphase2, hedges2, hcnt2⟩ := ih (s.tick x.1 x.2) c hthresh' hphase1
    exact ⟨hphase2, hedges2.trans hedges1, hcnt2.trans hcnt1⟩

end Sys2Proof.Machine
end

section
/-! CompletionCheck (42_edge_detector.md R159, R160): when it ends the transaction, and what it then makes of a channel. -/

namespace Sys2Proof.Reference

open Sys2Proof Sys2Proof.Machine

/-- A transaction ends when every channel of it is DONE, or when idle completion is on and every one is idle too long. -/
theorem completes_eq_true_iff (s : State) :
    s.completes = true ↔ s.txnActive = true ∧
      ((∀ c, named s.txnMask c = true → (s.ch c).phase = .done) ∨
        (s.replyTimeout ≠ 0 ∧ ∀ c, named s.txnMask c = true → s.replyTimeout < (s.ch c).idleCnt)) := by
  simp only [State.completes, Bool.and_eq_true, Bool.or_eq_true, allMasked_eq_true, beq_iff_eq, bne_iff_ne, isIdle_eq_true,
    BitVec.lt_def]

theorem finalized_complete {k : Channel} (h : k.phase ≠ .done) : finalized { k with timeout := true } k.complete := by
  obtain ⟨hdone, -⟩ | ⟨-, hk⟩ := complete_cases k
  · exact absurd hdone h
  · rw [hk]
    exact finalized_finalize _

theorem complete_of_done {k : Channel} (h : k.phase = .done) : k.complete = k := if_pos h

/-- Settles O35: by whether CompletionCheck ends the transaction, then by the channel's place in it. -/
theorem completionEndsTransaction : Obligations.CompletionEndsTransaction := by
  unfold Obligations.CompletionEndsTransaction
  refine ⟨fun _ _ _ => rfl, fun s => ?_⟩
  simp only [← completes_eq_true_iff]
  rcases completionCheck_cases s with ⟨hends, ht⟩ | ⟨hgoes, ht⟩
  case inr => exact ⟨fun _ => ht, fun h => by simp [hgoes] at h⟩
  case inl =>
    refine ⟨fun h => absurd hends h, fun _ => ⟨by rw [ht]; rfl, fun c => ?_⟩⟩
    rw [completionCheck_ch, hends, Bool.true_and]
    constructor
    · rintro ⟨hnamed, hphase⟩
      rw [if_pos hnamed]
      exact finalized_complete hphase
    · intro h
      split
      · next hnamed => exact complete_of_done (by simpa [hnamed] using h)
      · rfl

end Sys2Proof.Reference
end

section
/-! The invariants of one channel (10_state.md R49, R37) under the operations on channels. Between the sample and the end of
a WAIT or STARTED tick the start edge may stand at the present index and END_IDX may already be passed: `Channel.Sampled`
is what holds there. -/

namespace Sys2Proof.Machine

open Sys2Proof

/-! ### The edge buffer (R49 (d)) -/

/-- R49 (d): at most 160 edges are counted, and the entries from EDGE_CNT on are 0. -/
def Channel.BufferOk (k : Channel) : Prop :=
  k.edgeCnt.toNat ≤ 160 ∧ ∀ i, i < 160 → k.edgeCnt.toNat ≤ i → k.edges[i]? = some 0

theorem Channel.Inv.bufferOk {k : Channel} (h : k.Inv) : k.BufferOk := ⟨h.edge_cnt, h.edges_clear⟩

/-- An emptied buffer. -/
theorem bufferOk_of_empty {k : Channel} (hcnt : k.edgeCnt = 0) (hedges : k.edges = Vector.replicate 160 0) :
    k.BufferOk := by
  refine ⟨by simp [hcnt], fun i hi _ => ?_⟩
  simp [hedges, hi]

theorem bufferOk_recordEdge {k : Channel} (h : k.BufferOk) (t : Half) : (k.recordEdge t).BufferOk := by
  obtain ⟨hcnt, hclear⟩ := h
  by_cases hroom : k.edgeCnt.toNat < 160
  · refine ⟨?_, fun i hi hle => ?_⟩ <;> rw [recordEdge_edgeCnt k t hroom] at *
    · omega
    · rw [recordEdge_edges k t hroom, if_neg (by omega)]
      exact hclear i hi (by omega)
  · rw [recordEdge_of_full k t (by omega)]
    exact ⟨hcnt, hclear⟩

/-- The first edge stays the first. -/
theorem recordEdge_first {k : Channel} (t : Half) (h : 1 ≤ k.edgeCnt.toNat) :
    1 ≤ (k.recordEdge t).edgeCnt.toNat ∧ (k.recordEdge t).edges[0]? = k.edges[0]? := by
  by_cases hroom : k.edgeCnt.toNat < 160
  · rw [recordEdge_edgeCnt k t hroom, recordEdge_edges k t hroom, if_neg (by omega)]
    exact ⟨by omega, rfl⟩
  · rw [recordEdge_of_full k t (by omega)]
    exact ⟨h, rfl⟩

/-- In an empty buffer the recorded edge is the first. -/
theorem recordEdge_of_empty {k : Channel} (t : Half) (h : k.edgeCnt = 0) :
    1 ≤ (k.recordEdge t).edgeCnt.toNat ∧ (k.recordEdge t).edges[0]? = some t := by
  have hroom : k.edgeCnt.toNat < 160 := by simp [h]
  rw [recordEdge_edgeCnt k t hroom, recordEdge_edges k t hroom, if_pos (by simp [h])]
  exact ⟨by omega, rfl⟩

/-! ### Channels outside the receive window -/

/-- For a channel that neither waits nor has started, the clauses on the window say nothing. -/
theorem Channel.Inv.of_outside {k : Channel} (hwait : k.phase ≠ .wait) (hstarted : k.phase ≠ .started)
    (hbuffer : k.BufferOk) (hresults : k.nbits.toNat ≤ 128 ∧ k.octCnt.toNat ≤ 16)
    (hsum : k.calSum.toNat ≤ k.calCnt.toNat * 65535) : k.Inv where
  edge_cnt := hbuffer.1
  edges_clear := hbuffer.2
  wait_empty := fun h => absurd h hwait
  started_edge := fun h => absurd h hstarted
  start_before := fun h => absurd h hstarted
  window := fun h => (h.elim hwait hstarted).elim
  results := hresults
  cal_sum := hsum

theorem inv_clearChannel (k : Channel) : k.clearChannel.Inv :=
  .of_outside (by simp) (by simp) (bufferOk_of_empty rfl rfl) (by simp) (by simp)

theorem inv_startCal (v : Half) (k : Channel) : (k.startCal v).Inv :=
  .of_outside (by simp) (by simp) (bufferOk_of_empty rfl rfl) (by simp) (by simp)

/-- The results of a decode are in their ranges, whatever the edges (R49 (g)). -/
theorem decodeRx_results (k : Channel) : k.decodeRx.nbits.toNat ≤ 128 ∧ k.decodeRx.octCnt.toNat ≤ 16 := by
  constructor
  · have hnb : (processBits k.edgeList 128).nb ≤ 128 := Reference.processBits_nb_le _ _
    exact (Nat.mod_le _ _).trans hnb
  · rw [Channel.decodeRx_octCnt, Reference.declared_toNat]
    have hle := Reference.declaredOctets_le k.hdr
    split <;> omega

theorem inv_finalize {k : Channel} (hbuffer : k.BufferOk) (hsum : k.calSum.toNat ≤ k.calCnt.toNat * 65535) :
    k.finalize.Inv :=
  .of_outside (by simp) (by simp) hbuffer (decodeRx_results k) hsum

theorem Channel.Inv.finalize {k : Channel} (h : k.Inv) : k.finalize.Inv := inv_finalize h.bufferOk h.cal_sum

theorem Channel.Inv.decodeRx {k : Channel} (h : k.Inv) : k.decodeRx.Inv :=
  { h with results := decodeRx_results k }

theorem Channel.Inv.complete {k : Channel} (h : k.Inv) : k.complete.Inv := by
  obtain ⟨-, hk⟩ | ⟨-, hk⟩ := complete_cases k <;> rw [hk]
  · exact h
  · exact inv_finalize h.bufferOk h.cal_sum

theorem Channel.Inv.setThresh {k : Channel} (h : k.Inv) (v : Half) : ({ k with thresh := v } : Channel).Inv :=
  { h with }

theorem Channel.Inv.dropCal {k : Channel} (h : k.Inv) : k.dropCal.Inv := by
  unfold Channel.dropCal
  split
  · exact inv_clearChannel k
  · exact h

/-- EDGE.LOAD appends to a channel that is IDLE or DONE. -/
theorem Channel.Inv.recordEdge_of_quiet {k : Channel} (h : k.Inv) (hquiet : k.quiet = true) (t : Half) :
    (k.recordEdge t).Inv := by
  have hphase := (quiet_eq_true k).mp hquiet
  have hbuffer := bufferOk_recordEdge h.bufferOk t
  rw [recordEdge_frame] at hbuffer ⊢
  exact .of_outside (by rcases hphase with hp | hp <;> simp [hp]) (by rcases hphase with hp | hp <;> simp [hp]) hbuffer
    h.results h.cal_sum

/-- A channel RX.START names: cleared but for the registers of calibration and THRESH, and waiting (R132). -/
theorem openWindow_frame (m : Half) (k : Channel) :
    k.openWindow m =
      { Channel.reset with
        phase := .wait, endIdx := 1590, thresh := (k.openWindow m).thresh, calErr := (k.openWindow m).calErr
        calSum := k.calSum, calCnt := k.calCnt, settleLeft := k.settleLeft } := by
  unfold Channel.openWindow
  simp only
  split
  · rw [computeThreshold_frame]; rfl
  · rfl

/-- RX.START opens an empty window of 1590 samples; the sum of a calibration stays. -/
theorem Channel.Inv.openWindow {k : Channel} (h : k.Inv) (m : Half) : (k.openWindow m).Inv := by
  rw [openWindow_frame]
  have hbuffer : Channel.reset.BufferOk := bufferOk_of_empty rfl rfl
  exact
    { edge_cnt := hbuffer.1
      edges_clear := hbuffer.2
      wait_empty := fun _ => rfl
      started_edge := fun hp => by simp at hp
      start_before := fun hp => by simp at hp
      window := fun _ => by simp [Channel.reset]
      results := by simp [Channel.reset]
      cal_sum := h.cal_sum }

/-! ### A tick -/

/-- A receiving channel once the sample's crossing, or its absence, is recorded, before the index advances. -/
structure Channel.Sampled (k : Channel) : Prop where
  buffer : k.BufferOk
  receiving : k.phase = .wait ∨ k.phase = .started
  wait_empty : k.phase = .wait → k.edgeCnt = 0
  started_edge : k.phase = .started → 1 ≤ k.edgeCnt.toNat ∧ k.edges[0]? = some k.startIdx
  start_le : k.phase = .started → k.startIdx.toNat ≤ k.sampleIdx.toNat
  window : k.sampleIdx.toNat ≤ 1590 ∧ k.endIdx.toNat ≤ 1590
  results : k.nbits.toNat ≤ 128 ∧ k.octCnt.toNat ≤ 16
  cal_sum : k.calSum.toNat ≤ k.calCnt.toNat * 65535

theorem Channel.Inv.sampled {k : Channel} (h : k.Inv) (hphase : k.phase = .wait ∨ k.phase = .started) : k.Sampled :=
  { h with
    buffer := h.bufferOk
    receiving := hphase
    start_le := fun hp => (h.start_before hp).le
    window := ⟨(h.window hphase).1.trans (h.window hphase).2, (h.window hphase).2⟩ }

/-- A sample index of the window does not wrap when it advances. -/
theorem sampleIdx_succ {i : Half} (h : i.toNat ≤ 1590) : (i + 1).toNat = i.toNat + 1 :=
  toNat_add_one_of_ne_max (by rintro rfl; revert h; decide)

/-- At the end of the tick the start edge lies behind the index, and a channel that goes on is inside its window. -/
theorem Channel.Sampled.advance {k : Channel} (h : k.Sampled) : k.advance.Inv := by
  have hidx := sampleIdx_succ h.window.1
  obtain ⟨hlt, hk⟩ | ⟨-, hk⟩ := Reference.advance_cases k <;> rw [hk]
  · exact
      { h with
        edge_cnt := h.buffer.1
        edges_clear := h.buffer.2
        start_before := fun hp => hidx ▸ Nat.lt_succ_of_le (h.start_le hp)
        window := fun _ => ⟨Nat.le_of_lt hlt, h.window.2⟩ }
  · exact inv_finalize h.buffer h.cal_sum

theorem headerDecode_endIdx_le {k : Channel} (h : k.endIdx.toNat ≤ 1590) : k.headerDecode.endIdx.toNat ≤ 1590 := by
  cases herr : (processBits k.edgeList 8).err with
  | missingStart => rwa [Reference.headerDecode_of_missingStart herr]
  | none =>
    rw [Reference.headerDecode_of_ok herr]
    simp only [Reference.toNat_endIdx, Reference.endIdxFor_decl_le]

/-- The header pass can only move END_IDX within 1590. -/
theorem Channel.Sampled.headerCheck {k : Channel} (h : k.Sampled) : k.headerCheck.Sampled := by
  obtain ⟨-, -, hk⟩ | ⟨-, hk⟩ := headerCheck_cases k <;> rw [hk]
  · have hend := headerDecode_endIdx_le h.window.2
    rw [headerDecode_frame]
    exact { h with window := ⟨h.window.1, hend⟩ }
  · exact h

/-- A low sample in WAIT, or none that changes the level in STARTED. -/
theorem Channel.Sampled.countIdle {k : Channel} (h : k.Sampled) (v : Half) :
    ({ k with idleCnt := v } : Channel).Sampled := { h with }

/-- An edge recorded in a started channel. -/
theorem Channel.Sampled.recordEdge {k : Channel} (h : k.Sampled) (hstarted : k.phase = .started) (t : Half) :
    (k.recordEdge t).Sampled := by
  have hbuffer := bufferOk_recordEdge h.buffer t
  obtain ⟨hcnt, hedge⟩ := h.started_edge hstarted
  obtain ⟨hcnt', hedge'⟩ := recordEdge_first t hcnt
  have hfirst := hedge'.trans hedge
  rw [recordEdge_frame] at hbuffer ⊢
  exact { h with buffer := hbuffer, wait_empty := fun hp => by simp [hstarted] at hp, started_edge := fun _ => ⟨hcnt', hfirst⟩ }

/-- A started channel's sample. -/
theorem Channel.Sampled.startedSample {k : Channel} (h : k.Sampled) (hstarted : k.phase = .started) (x : Half) :
    (k.startedSample x).Sampled := by
  by_cases hcross : k.prev = k.hi x
  · rw [Reference.startedSample_of_level hcross]
    exact h.countIdle _
  · rw [Reference.startedSample_of_crossing hcross]
    exact Channel.Sampled.recordEdge (k := { k with prev := k.hi x, idleCnt := 0 }) { h with } hstarted _

/-- A waiting channel's sample: the start edge is the first edge, at the present index. -/
theorem Channel.Sampled.waitSample {k : Channel} (h : k.Sampled) (hwait : k.phase = .wait) (x : Half) :
    (k.waitSample x).Sampled := by
  cases hx : k.hi x with
  | false =>
    rw [Reference.waitSample_of_low hx]
    exact h.countIdle _
  | true =>
    rw [Reference.waitSample_of_high hx]
    have hempty := h.wait_empty hwait
    have hbuffer := bufferOk_recordEdge
      (k := { k with startIdx := k.sampleIdx, prev := true, phase := .started, idleCnt := 0 }) h.buffer k.sampleIdx
    have hfirst := recordEdge_of_empty
      (k := { k with startIdx := k.sampleIdx, prev := true, phase := .started, idleCnt := 0 }) k.sampleIdx hempty
    rw [recordEdge_frame] at hbuffer hfirst ⊢
    exact
      { h with
        buffer := hbuffer
        receiving := .inr rfl
        wait_empty := fun hp => by simp at hp
        started_edge := fun _ => hfirst
        start_le := fun _ => le_rfl }

theorem Channel.Inv.tickCal {k : Channel} (h : k.Inv) (hcal : k.phase = .cal) (x : Half) : (k.tickCal x).Inv := by
  have hwait : k.phase ≠ .wait := by simp [hcal]
  have hstarted : k.phase ≠ .started := by simp [hcal]
  obtain ⟨-, hk⟩ | ⟨-, hroom, hk⟩ | ⟨-, -, hk⟩ := tickCal_cases x k <;> rw [hk]
  · exact .of_outside hwait hstarted h.bufferOk h.results h.cal_sum
  · refine .of_outside hwait hstarted h.bufferOk h.results ?_
    have hsum := calSum_add_toNat x h.cal_sum
    have hcnt := toNat_add_one_of_ne_max hroom
    have hle := h.cal_sum
    have hx := x.isLt
    simp only [hsum, hcnt]
    omega
  · exact h

/-- ChannelTick keeps the invariants of its channel, in every phase. -/
theorem Channel.Inv.tick {k : Channel} (h : k.Inv) (b : Bool) (x : Half) : (k.tick b x).Inv := by
  cases hphase : k.phase with
  | idle => rwa [tick_of_idle b x k hphase]
  | cal =>
    rw [tick_of_cal b x k hphase]
    exact h.tickCal hphase x
  | wait =>
    rw [tick_of_wait b x k hphase]
    exact ((h.sampled (.inl hphase)).waitSample hphase x).advance
  | started =>
    rw [tick_of_started b x k hphase]
    exact ((h.sampled (.inr hphase)).startedSample hphase x).headerCheck.advance
  | done =>
    rw [tick_of_done b x k hphase]
    split
    · exact { h with }
    · exact h

end Sys2Proof.Machine
end

section
/-! The invariants of CC8 (10_state.md R49) under every event. Beside its channels they speak of PHASE, TXN_ACTIVE and
TXN_MASK only. -/

namespace Sys2Proof.Machine

open Sys2Proof

/-! ### States that agree on the transaction and the phases -/

theorem State.Inv.of_phases {s t : State} (h : s.Inv) (hchans : ∀ c, (t.ch c).Inv)
    (hphase : ∀ c, (t.ch c).phase = (s.ch c).phase) (hactive : t.txnActive = s.txnActive) (hmask : t.txnMask = s.txnMask) :
    t.Inv where
  chans := hchans
  receiving := by simpa only [hphase, hactive, hmask] using h.receiving
  mask_idle := by simpa only [hactive, hmask] using h.mask_idle
  mask_active := by simpa only [hactive, hmask] using h.mask_active
  members := by simpa only [hphase, hactive, hmask] using h.members
  no_cal := by simpa only [hphase, hactive] using h.no_cal

/-- An update of other registers. -/
theorem State.Inv.of_channels {s t : State} (h : s.Inv) (hch : ∀ c, t.ch c = s.ch c) (hactive : t.txnActive = s.txnActive)
    (hmask : t.txnMask = s.txnMask) : t.Inv :=
  h.of_phases (fun c => hch c ▸ h.chans c) (fun c => congrArg Channel.phase (hch c)) hactive hmask

theorem State.Inv.raise {s : State} (h : s.Inv) (e : ErrCode) : (s.raise e).Inv :=
  h.of_channels (State.raise_ch e s) rfl rfl

/-- A loop over the named channels that keeps every PHASE. -/
theorem State.Inv.mapNamed {s : State} (h : s.Inv) {chm : ChMask} {f : Channel → Channel}
    (hf : ∀ c, named chm c = true → (f (s.ch c)).Inv ∧ (f (s.ch c)).phase = (s.ch c).phase) : (s.mapNamed chm f).Inv := by
  refine h.of_phases (fun c => ?_) (fun c => ?_) rfl rfl <;> rw [State.mapNamed_ch] <;> split
  · next hc => exact (hf c hc).1
  · exact h.chans c
  · next hc => exact (hf c hc).2
  · rfl

/-- Without a transaction no channel receives, and the mask is empty. -/
theorem State.Inv.of_inactive {t : State} (hchans : ∀ c, (t.ch c).Inv) (hactive : t.txnActive = false) (hmask : t.txnMask = 0)
    (hphase : ∀ c, (t.ch c).phase ≠ .wait ∧ (t.ch c).phase ≠ .started) : t.Inv where
  chans := hchans
  receiving := fun c h => absurd h (not_or.mpr (hphase c))
  mask_idle := fun _ => hmask
  mask_active := fun h => by simp [hactive] at h
  members := fun c h => by simp [hactive] at h
  no_cal := fun c h => by simp [hactive] at h

/-- Without a transaction no channel receives (R49 (a)). -/
theorem State.Inv.phase_of_inactive {s : State} (h : s.Inv) (hactive : s.txnActive = false) (c : Chan) :
    (s.ch c).phase ≠ .wait ∧ (s.ch c).phase ≠ .started := by
  have hreceiving := h.receiving c
  simpa [hactive] using hreceiving

/-! ### Commands -/

theorem State.Inv.chReset {s t : State} {chm : ChMask} (h : s.Inv) (ht : execChReset chm s = .next t) : t.Inv := by
  obtain ⟨-, rfl⟩ | ⟨hout, rfl⟩ := execChReset_cases ht
  · exact h.raise .busy
  have hphase : ∀ c, ((s.mapNamed chm Channel.clearChannel).ch c).phase = .idle ∨
      (((s.mapNamed chm Channel.clearChannel).ch c).phase = (s.ch c).phase ∧ named chm c = false) := by
    intro c
    cases hc : named chm c <;> simp [hc]
  exact
    { h with
      chans := fun c => by
        rw [State.mapNamed_ch]
        split
        · exact inv_clearChannel _
        · exact h.chans c
      receiving := fun c hp => by
        rcases hphase c with hc | ⟨hc, -⟩ <;> rw [hc] at hp
        · simp at hp
        · exact h.receiving c hp
      members := fun c hactive hmember => by
        rcases hphase c with hc | ⟨hc, -⟩
        · by_cases hn : named chm c = true
          · have hin := (inTxn_eq_true s c).mpr ⟨hactive, hmember⟩
            simp [hout c hn] at hin
          · simpa [hn] using h.members c hactive hmember
        · rw [hc]
          exact h.members c hactive hmember
      no_cal := fun c hactive => by
        rcases hphase c with hc | ⟨hc, -⟩ <;> rw [hc]
        · simp
        · exact h.no_cal c hactive }

theorem State.Inv.calStart {s t : State} {chm : ChMask} (h : s.Inv) (ht : execCalStart chm s = .next t) : t.Inv := by
  obtain ⟨-, rfl⟩ | ⟨hactive, rfl⟩ := execCalStart_cases ht
  · exact h.raise .busy
  refine .of_inactive (fun c => ?_) hactive (h.mask_idle hactive) fun c => ?_ <;> rw [State.mapNamed_ch] <;> split
  · exact inv_startCal _ _
  · exact h.chans c
  · simp
  · exact h.phase_of_inactive hactive c

/-- The phase of a channel RX.START does not name. -/
theorem dropCal_phase (k : Channel) : k.dropCal.phase = if k.phase = .cal then .idle else k.phase := by
  unfold Channel.dropCal
  split <;> rfl

@[simp] theorem openWindow_phase (m : Half) (k : Channel) : (k.openWindow m).phase = .wait := rfl

/-- What an accepted RX.START makes of the transaction and of each channel (R132). -/
theorem execRxStart_accepted {s t : State} {chm : ChMask} (hactive : s.txnActive = false)
    (h : execRxStart chm s = .next t) :
    t.txnActive = true ∧ t.txnMask = chm ∧
      ∀ c, t.ch c = if named chm c then (s.ch c).openWindow s.margin else (s.ch c).dropCal := by
  obtain ⟨hbusy, -⟩ | ⟨-, rfl⟩ := execRxStart_cases h
  · simp [hactive] at hbusy
  refine ⟨rfl, rfl, fun c => ?_⟩
  rw [← State.mapChans_ch (fun c k => if named chm c then k.openWindow s.margin else k.dropCal)]
  exact State.ch_congr rfl rfl c

/-- What RX.ABORT makes of each channel (R134). -/
theorem execRxAbort_ch {s t : State} (h : execRxAbort s = .next t) (c : Chan) :
    t.ch c = if (s.ch c).running then (s.ch c).clearChannel else s.ch c := by
  obtain rfl := execRxAbort_cases h
  rw [← State.mapChans_ch fun _ k => if k.running then k.clearChannel else k]
  exact State.ch_congr rfl rfl c

theorem State.Inv.rxStart {s t : State} {chm : ChMask} (h : s.Inv) (hchm : chm ≠ 0) (ht : execRxStart chm s = .next t) :
    t.Inv := by
  cases hs : s.txnActive with
  | true =>
    obtain ⟨-, rfl⟩ | ⟨hidle, -⟩ := execRxStart_cases ht
    · exact h.raise .busy
    · simp [hs] at hidle
  | false =>
    obtain ⟨hactive, hmask, hch⟩ := execRxStart_accepted hs ht
    have hnamed : ∀ c, named chm c = true → (t.ch c).phase = .wait := fun c hc => by simp [hch, hc]
    have hother : ∀ c, named chm c = false →
        (t.ch c).phase ≠ .wait ∧ (t.ch c).phase ≠ .started ∧ (t.ch c).phase ≠ .cal := by
      intro c hc
      obtain ⟨hwait, hstarted⟩ := h.phase_of_inactive hs c
      simp only [hch, hc, Bool.false_eq_true, if_false, dropCal_phase]
      split
      · simp
      · next hcal => exact ⟨hwait, hstarted, hcal⟩
    exact
      { chans := fun c => by
          rw [hch]
          split
          · exact (h.chans c).openWindow _
          · exact (h.chans c).dropCal
        receiving := fun c hp => by
          cases hc : named chm c with
          | true => exact ⟨hactive, hmask ▸ hc⟩
          | false =>
            obtain ⟨hwait, hstarted, -⟩ := hother c hc
            exact (hp.elim hwait hstarted).elim
        mask_idle := fun hp => by simp [hactive] at hp
        mask_active := fun _ => hmask ▸ hchm
        members := fun c _ hmember => .inl (hnamed c (hmask ▸ hmember))
        no_cal := fun c _ => by
          cases hc : named chm c with
          | true => simp [hnamed c hc]
          | false =>
            obtain ⟨-, -, hcal⟩ := hother c hc
            exact hcal }

theorem State.Inv.rxAbort {s t : State} (h : s.Inv) (ht : execRxAbort s = .next t) : t.Inv := by
  have hch := execRxAbort_ch ht
  obtain rfl := execRxAbort_cases ht
  refine .of_inactive (fun c => ?_) rfl rfl fun c => ?_ <;> rw [hch] <;> split
  · exact inv_clearChannel _
  · exact h.chans c
  · simp
  · next hrunning =>
    rw [running_eq_true, not_or, not_or] at hrunning
    obtain ⟨-, hwait, hstarted⟩ := hrunning
    exact ⟨hwait, hstarted⟩

theorem State.Inv.edgeLoad {s t : State} {chm : ChMask} {x : Half} (h : s.Inv) (ht : execEdgeLoad chm x s = .next t) :
    t.Inv := by
  obtain ⟨-, rfl⟩ | ⟨hquiet, rfl⟩ := execEdgeLoad_cases ht
  · exact h.raise .busy
  · exact h.mapNamed fun c hc => ⟨(h.chans c).recordEdge_of_quiet (hquiet c hc) x, by simp⟩

theorem State.Inv.decode {s t : State} {chm : ChMask} (h : s.Inv) (ht : execDecode chm s = .next t) : t.Inv := by
  obtain ⟨-, rfl⟩ | ⟨-, rfl⟩ := execDecode_cases ht
  · exact h.raise .busy
  · exact h.mapNamed fun c _ => ⟨(h.chans c).decodeRx, by simp⟩

/-- A well-formed command keeps the invariants; RX.START relies on its mask (R49 (c)). -/
theorem State.Inv.exec {i : Instr} {s t : State} (h : s.Inv) (hi : i.wellFormed = true) (ht : exec i s = .next t) :
    t.Inv := by
  cases i with
  | nop | crcInit | crcByte | crcSet =>
    cases ht
    exact h.of_channels (State.ch_congr rfl rfl) rfl rfl
  | chReset chm => exact h.chReset ht
  | calStart chm => exact h.calStart ht
  | rxStart chm => exact h.rxStart (by simpa [Instr.wellFormed] using hi) ht
  | rxAbort => exact h.rxAbort ht
  | edgeLoad chm x => exact h.edgeLoad ht
  | decode chm => exact h.decode ht

/-! ### TICK -/

/-- The ChannelTicks move a channel only within the phases of a transaction. -/
theorem State.Inv.tickChannels {s : State} (h : s.Inv) (s0 s1 : Half) : (s.tickChannels s0 s1).Inv := by
  have hch := tickChannels_ch s0 s1 s
  have hphase := fun c => tick_phase_cases (s.inTxn c) (sampleOf s0 s1 c) (s.ch c)
  exact
    { h with
      chans := fun c => hch c ▸ (h.chans c).tick _ _
      receiving := fun c hp => by
        refine h.receiving c ?_
        rw [hch] at hp
        rcases hphase c with hsame | ⟨hwait, -⟩ | ⟨hin, -⟩
        · rwa [hsame] at hp
        · exact .inl hwait
        · exact hin
      members := fun c hactive hmember => by
        rw [hch]
        rcases hphase c with hsame | ⟨-, hstarted⟩ | ⟨-, hdone⟩
        · rw [hsame]
          exact h.members c hactive hmember
        · exact .inr (.inl hstarted)
        · exact .inr (.inr hdone)
      no_cal := fun c hactive => by
        rw [hch]
        rcases hphase c with hsame | ⟨-, hstarted⟩ | ⟨-, hdone⟩
        · rw [hsame]
          exact h.no_cal c hactive
        · simp [hstarted]
        · simp [hdone] }

/-- When the transaction ends every channel of it is DONE, and no other channel receives. -/
theorem State.Inv.completionCheck {s : State} (h : s.Inv) : s.completionCheck.Inv := by
  have hch := completionCheck_ch s
  rcases completionCheck_cases s with ⟨hends, ht⟩ | ⟨-, ht⟩
  case inr => rwa [ht]
  case inl =>
    simp only [hends, Bool.true_and] at hch
    refine .of_inactive (fun c => ?_) (by rw [ht]) (by rw [ht]) fun c => ?_ <;> rw [hch] <;> split
    · exact (h.chans c).complete
    · exact h.chans c
    · simp
    · next hout =>
      refine not_or.mp fun hp => ?_
      obtain ⟨-, hin⟩ := h.receiving c hp
      exact hout hin

theorem State.Inv.tick {s : State} (h : s.Inv) (s0 s1 : Half) : (s.tick s0 s1).Inv :=
  (h.tickChannels s0 s1).completionCheck

/-! ### Register accesses and reset -/

theorem State.Inv.configWrite {s : State} (h : s.Inv) {upd : State → State} (hupd : (upd s).Inv) :
    (s.configWrite upd).Inv := by
  obtain ⟨-, hs⟩ | ⟨-, hs⟩ := configWrite_cases upd s <;> rw [hs]
  · exact h.raise .busy
  · exact hupd

theorem State.Inv.setThresh {s : State} (h : s.Inv) (c : Chan) (v : Half) : (s.setThresh c v).Inv := by
  refine h.of_phases (fun c' => ?_) (fun c' => ?_) rfl rfl <;> rw [State.setThresh, State.mapChans_ch] <;> split
  · exact (h.chans c').setThresh v
  · exact h.chans c'
  · rfl
  · rfl

theorem State.Inv.writeReg {s : State} (h : s.Inv) (v : Word) (r : Reg) : (s.writeReg v r).Inv := by
  cases r with
  | margin | calSettle | replyTimeout =>
    simp only [State.writeReg]
    exact h.configWrite (h.of_channels (State.ch_congr rfl rfl) rfl rfl)
  | thresh c => exact h.configWrite (h.setThresh c _)
  | _ => exact h.of_channels (State.ch_congr rfl rfl) rfl rfl

theorem State.Inv.busRead {s : State} (h : s.Inv) (addr : Offset) : (s.busRead addr).Inv := by
  obtain ⟨-, hs⟩ | ⟨-, hs⟩ := busRead_cases addr s <;> rw [hs] <;> exact h.of_channels (State.ch_congr rfl rfl) rfl rfl

theorem inv_reset : State.reset.Inv := by
  have hch : ∀ c, State.reset.ch c = Channel.reset := fun c => by cases c <;> rfl
  refine .of_inactive (fun c => ?_) rfl rfl fun c => ?_ <;> rw [hch]
  · exact .of_outside (by decide) (by decide) (bufferOk_of_empty rfl rfl) (by decide) (by decide)
  · decide

/-- Settles O55: both channels are idle and cleared, and no transaction is active. -/
theorem resetMeetsInvariants : Obligations.ResetMeetsInvariants := by
  unfold Obligations.ResetMeetsInvariants
  exact inv_reset

/-! ### Every event -/

/-- A word written to CMD is rejected, or runs a command that names a channel where it names any set. -/
theorem State.Inv.execWord {w : Word} {s t : State} (h : s.Inv) (ht : execWord w s = .next t) : t.Inv := by
  obtain ⟨e, -, hw⟩ | ⟨i, hdecode, hw⟩ := execWord_cases w s <;> rw [hw] at ht
  · cases ht
    exact h.raise e
  · exact h.exec (Reference.wellFormed_of_decode hdecode) ht

theorem State.Inv.execBusWrite {addr : Offset} {v : Word} {s t : State} (h : s.Inv)
    (ht : execBusWrite addr v s = .next t) : t.Inv := by
  obtain ⟨-, hw⟩ | ⟨-, -, hw⟩ | ⟨-, -, hw⟩ := execBusWrite_cases addr v s <;> rw [hw] at ht
  · cases ht
    exact h.raise .misaligned
  · exact h.execWord ht
  · cases ht
    exact h.writeReg v _

theorem State.Inv.execEvent {e : Event} {s t : State} (h : s.Inv) (ht : execEvent e s = .next t) : t.Inv := by
  cases e with
  | busRead addr => cases ht; exact h.busRead addr
  | busWrite addr v => exact h.execBusWrite ht
  | tick s0 s1 => cases ht; exact h.tick s0 s1
  | reset =>
    cases ht
    exact inv_reset.of_channels (State.ch_congr rfl rfl) rfl rfl

/-- Settles O56: a step runs the oldest event, if there is one, and every event keeps the invariants. -/
theorem stepKeepsInvariants : Obligations.StepKeepsInvariants := by
  unfold Obligations.StepKeepsInvariants
  intro s t h ht
  obtain ⟨-, hs⟩ | ⟨e, rest, -, hs⟩ := step_cases s <;> rw [hs] at ht
  · cases ht
    exact h
  · have hrest : State.Inv { s with inputs := rest } := h.of_channels (State.ch_congr rfl rfl) rfl rfl
    exact hrest.execEvent ht

end Sys2Proof.Machine
end

section
/-! Commands: each completes in every state (60_exceptions.md R200), and what the channel commands do where they are not
rejected with BUSY (41_channel_control.md, 43_bit_sync.md R189 and R190). -/

namespace Sys2Proof.Machine

open Sys2Proof

/-! ### Every command and every step completes (R200) -/

/-- A meaning that chooses between two next states completes. -/
theorem completes_ite {p : Prop} [Decidable p] (s t : State) :
    Completes (if p then .next s else .next t) := by
  split <;> exact ⟨_, rfl⟩

theorem exec_completes (i : Instr) (s : State) : Completes (exec i s) := by
  cases i with
  | nop | crcInit | crcByte | crcSet | rxAbort => exact ⟨_, rfl⟩
  | chReset | calStart | rxStart | edgeLoad | decode => exact completes_ite _ _

theorem execWord_completes (w : Word) (s : State) : Completes (execWord w s) := by
  obtain ⟨e, -, hw⟩ | ⟨i, -, hw⟩ := execWord_cases w s <;> rw [hw]
  · exact ⟨_, rfl⟩
  · exact exec_completes i s

theorem execEvent_completes (e : Event) (s : State) : Completes (execEvent e s) := by
  cases e with
  | busRead | tick | reset => exact ⟨_, rfl⟩
  | busWrite addr v =>
    show Completes (execBusWrite addr v s)
    obtain ⟨-, hw⟩ | ⟨-, -, hw⟩ | ⟨-, -, hw⟩ := execBusWrite_cases addr v s <;> rw [hw]
    · exact ⟨_, rfl⟩
    · exact execWord_completes v s
    · exact ⟨_, rfl⟩

/-- Settles O7: by the event a step runs. -/
theorem noStepStops : Obligations.NoStepStops := by
  unfold Obligations.NoStepStops
  refine ⟨fun s => ?_, exec_completes⟩
  obtain ⟨-, hs⟩ | ⟨e, rest, -, hs⟩ := step_cases s <;> rw [hs]
  · exact ⟨_, rfl⟩
  · exact execEvent_completes e _

/-! ### The row of events -/

/-- No command touches the row of events. -/
theorem exec_inputs {i : Instr} {s t : State} (h : exec i s = .next t) : t.inputs = s.inputs := by
  cases i with
  | nop | crcInit | crcByte | crcSet => cases h; rfl
  | chReset chm => obtain ⟨-, rfl⟩ | ⟨-, rfl⟩ := execChReset_cases h <;> rfl
  | calStart chm => obtain ⟨-, rfl⟩ | ⟨-, rfl⟩ := execCalStart_cases h <;> rfl
  | rxStart chm => obtain ⟨-, rfl⟩ | ⟨-, rfl⟩ := execRxStart_cases h <;> rfl
  | rxAbort => obtain rfl := execRxAbort_cases h; rfl
  | edgeLoad chm x => obtain ⟨-, rfl⟩ | ⟨-, rfl⟩ := execEdgeLoad_cases h <;> rfl
  | decode chm => obtain ⟨-, rfl⟩ | ⟨-, rfl⟩ := execDecode_cases h <;> rfl

theorem configWrite_inputs {upd : State → State} (s : State) (hupd : (upd s).inputs = s.inputs) :
    (s.configWrite upd).inputs = s.inputs := by
  obtain ⟨-, hs⟩ | ⟨-, hs⟩ := configWrite_cases upd s <;> rw [hs]
  · rfl
  · exact hupd

theorem writeReg_inputs (v : Word) (r : Reg) (s : State) : (s.writeReg v r).inputs = s.inputs := by
  cases r with
  | margin | calSettle | replyTimeout | thresh => exact configWrite_inputs s rfl
  | _ => rfl

theorem execBusWrite_inputs {addr : Offset} {v : Word} {s t : State} (h : execBusWrite addr v s = .next t) :
    t.inputs = s.inputs := by
  obtain ⟨-, hw⟩ | ⟨-, -, hw⟩ | ⟨-, -, hw⟩ := execBusWrite_cases addr v s <;> rw [hw] at h
  · cases h; rfl
  · obtain ⟨e, -, hw⟩ | ⟨i, -, hw⟩ := execWord_cases v s <;> rw [hw] at h
    · cases h; rfl
    · exact exec_inputs h
  · cases h
    exact writeReg_inputs v _ s

theorem execEvent_inputs {e : Event} {s t : State} (h : execEvent e s = .next t) : t.inputs = s.inputs := by
  cases e with
  | busRead addr =>
    cases h
    obtain ⟨-, hs⟩ | ⟨-, hs⟩ := busRead_cases addr s <;> exact (congrArg State.inputs hs :)
  | busWrite addr v => exact execBusWrite_inputs h
  | tick s0 s1 => cases h; rw [tick_frame]
  | reset => cases h; rfl

/-- Settles O8: the step takes the head off the row before it runs the event, and no event touches the row. -/
theorem stepConsumesOneEvent : Obligations.StepConsumesOneEvent := by
  unfold Obligations.StepConsumesOneEvent
  intro s t h
  obtain ⟨hnone, hs⟩ | ⟨e, rest, hinputs, hs⟩ := step_cases s <;> rw [hs] at h
  · cases h
    rw [hnone, List.tail_nil]
  · rw [hinputs]
    exact execEvent_inputs h

/-! ### Rejection with BUSY (60_exceptions.md R201) -/

/-- Settles O9: by the command, each of which is rejected with BUSY or does not write ERR and LAST_ERR. -/
theorem commandRejectsPrecisely : Obligations.CommandRejectsPrecisely := by
  unfold Obligations.CommandRejectsPrecisely
  intro i s t h
  cases i with
  | nop | crcInit | crcByte | crcSet => cases h; exact .inr ⟨rfl, rfl⟩
  | chReset chm => exact (execChReset_cases h).imp And.right fun ⟨_, ht⟩ => ht ▸ ⟨rfl, rfl⟩
  | calStart chm => exact (execCalStart_cases h).imp And.right fun ⟨_, ht⟩ => ht ▸ ⟨rfl, rfl⟩
  | rxStart chm => exact (execRxStart_cases h).imp And.right fun ⟨_, ht⟩ => ht ▸ ⟨rfl, rfl⟩
  | rxAbort => obtain rfl := execRxAbort_cases h; exact .inr ⟨rfl, rfl⟩
  | edgeLoad chm x => exact (execEdgeLoad_cases h).imp And.right fun ⟨_, ht⟩ => ht ▸ ⟨rfl, rfl⟩
  | decode chm => exact (execDecode_cases h).imp And.right fun ⟨_, ht⟩ => ht ▸ ⟨rfl, rfl⟩

/-- A named channel is in the active transaction, as the model tests it (R130). -/
theorem namedInTransaction_iff (chm : ChMask) (s : State) :
    Reference.namedInTransaction chm s ↔ ∃ c, named chm c = true ∧ s.inTxn c = true := by
  simp only [Reference.namedInTransaction, inTxn_eq_true]
  exact ⟨fun ⟨hactive, c, hc, hmask⟩ => ⟨c, hc, hactive, hmask⟩, fun ⟨c, hc, hactive, hmask⟩ => ⟨hactive, c, hc, hmask⟩⟩

/-- Every named channel is at rest, as the model tests it (R189, R190). -/
theorem namedAtRest_iff (chm : ChMask) (s : State) :
    Reference.namedAtRest chm s ↔ ∀ c, named chm c = true → (s.ch c).quiet = true := by
  simp only [Reference.namedAtRest, quiet_eq_true]

theorem execChReset_eq (chm : ChMask) (s : State) :
    (Reference.namedInTransaction chm s → exec (.chReset chm) s = .next (s.raise .busy)) ∧
    (¬ Reference.namedInTransaction chm s → exec (.chReset chm) s = .next (s.mapNamed chm Channel.clearChannel)) := by
  obtain ⟨t, ht⟩ := exec_completes (.chReset chm) s
  rw [ht, namedInTransaction_iff]
  obtain ⟨hin, rfl⟩ | ⟨hout, rfl⟩ := execChReset_cases ht
  · exact ⟨fun _ => rfl, fun h => absurd hin h⟩
  · exact ⟨fun ⟨c, hc, hin⟩ => by simp [hout c hc] at hin, fun _ => rfl⟩

theorem execCalStart_eq (chm : ChMask) (s : State) :
    (s.txnActive = true → exec (.calStart chm) s = .next (s.raise .busy)) ∧
    (s.txnActive = false → exec (.calStart chm) s = .next (s.mapNamed chm (Channel.startCal s.calSettle))) := by
  obtain ⟨t, ht⟩ := exec_completes (.calStart chm) s
  rw [ht]
  obtain ⟨hactive, rfl⟩ | ⟨hidle, rfl⟩ := execCalStart_cases ht
  · exact ⟨fun _ => rfl, fun h => by simp [hactive] at h⟩
  · exact ⟨fun h => by simp [hidle] at h, fun _ => rfl⟩

theorem execRxStart_of_active {s : State} (chm : ChMask) (h : s.txnActive = true) :
    exec (.rxStart chm) s = .next (s.raise .busy) := if_pos h

theorem execEdgeLoad_eq (chm : ChMask) (x : Half) (s : State) :
    (¬ Reference.namedAtRest chm s → exec (.edgeLoad chm x) s = .next (s.raise .busy)) ∧
    (Reference.namedAtRest chm s → exec (.edgeLoad chm x) s = .next (s.mapNamed chm (Channel.recordEdge x))) := by
  obtain ⟨t, ht⟩ := exec_completes (.edgeLoad chm x) s
  rw [ht, namedAtRest_iff]
  obtain ⟨⟨c, hc, hbusy⟩, rfl⟩ | ⟨hrest, rfl⟩ := execEdgeLoad_cases ht
  · exact ⟨fun _ => rfl, fun h => by simp [h c hc] at hbusy⟩
  · exact ⟨fun h => absurd hrest h, fun _ => rfl⟩

theorem execDecode_eq (chm : ChMask) (s : State) :
    (¬ Reference.namedAtRest chm s → exec (.decode chm) s = .next (s.raise .busy)) ∧
    (Reference.namedAtRest chm s → exec (.decode chm) s = .next (s.mapNamed chm Channel.decodeRx)) := by
  obtain ⟨t, ht⟩ := exec_completes (.decode chm) s
  rw [ht, namedAtRest_iff]
  obtain ⟨⟨c, hc, hbusy⟩, rfl⟩ | ⟨hrest, rfl⟩ := execDecode_cases ht
  · exact ⟨fun _ => rfl, fun h => by simp [h c hc] at hbusy⟩
  · exact ⟨fun h => absurd hrest h, fun _ => rfl⟩

/-- Settles O10: the refusing half of each command's equations. -/
theorem busyRejectionsLeaveState : Obligations.BusyRejectionsLeaveState := by
  unfold Obligations.BusyRejectionsLeaveState
  intro chm t s
  obtain ⟨hreset, -⟩ := execChReset_eq chm s
  obtain ⟨hcal, -⟩ := execCalStart_eq chm s
  obtain ⟨hload, -⟩ := execEdgeLoad_eq chm t s
  obtain ⟨hdecode, -⟩ := execDecode_eq chm s
  exact ⟨hreset, hcal, execRxStart_of_active chm, hload, hdecode⟩

/-! ### Accepted channel commands -/

/-- ClearChannel is the reset of everything but THRESH (10_state.md R52). -/
theorem clearChannel_eq_cleared (k : Channel) : k.clearChannel = Reference.cleared k := rfl

/-- Settles O17: the accepting half of CH.RESET's equation, channel by channel. -/
theorem chResetClearsNamedChannels : Obligations.ChResetClearsNamedChannels := by
  unfold Obligations.ChResetClearsNamedChannels
  intro chm s hout
  obtain ⟨-, hreset⟩ := execChReset_eq chm s
  exact ⟨_, hreset hout, rfl, State.mapNamed_ch chm Channel.clearChannel s⟩

/-- Settles O18: the accepting half of CAL.START's equation, channel by channel. -/
theorem calStartBeginsCalibration : Obligations.CalStartBeginsCalibration := by
  unfold Obligations.CalStartBeginsCalibration
  intro chm s hidle
  obtain ⟨-, hcal⟩ := execCalStart_eq chm s
  exact ⟨_, hcal hidle, rfl, State.mapNamed_ch chm (Channel.startCal s.calSettle) s⟩

/-- A channel that was not calibrating keeps THRESH and CAL_ERR when its window opens (R132). -/
theorem openWindow_of_not_cal {k : Channel} (m : Half) (h : k.phase ≠ .cal) :
    (k.openWindow m).thresh = k.thresh ∧ (k.openWindow m).calErr = k.calErr := by
  simp [Channel.openWindow, h]

/-- A calibrating one gets those of ComputeThreshold (R133). -/
theorem openWindow_of_cal {k : Channel} (m : Half) (h : k.phase = .cal) :
    (k.openWindow m).thresh = (k.computeThreshold m).thresh ∧ (k.openWindow m).calErr = (k.computeThreshold m).calErr := by
  simp [Channel.openWindow, h]

theorem computeThreshold_of_no_samples {k : Channel} (m : Half) (h : k.calCnt = 0) :
    (k.computeThreshold m).thresh = 0xFFFF ∧ (k.computeThreshold m).calErr = true := by
  simp [Channel.computeThreshold, h]

theorem computeThreshold_of_samples {k : Channel} (m : Half) (h : k.calCnt ≠ 0) :
    (k.computeThreshold m).thresh.toNat = min 65535 (k.calSum.toNat / k.calCnt.toNat + m.toNat) ∧
    (k.computeThreshold m).calErr = false := by
  rw [Channel.computeThreshold, if_neg h]
  exact ⟨Nat.mod_eq_of_lt (Nat.lt_of_le_of_lt (Nat.min_le_left _ _) (by decide)), rfl⟩

/-- Settles O19: each channel by whether it is named and whether it was calibrating. -/
theorem rxStartOpensReceiveWindow : Obligations.RxStartOpensReceiveWindow := by
  unfold Obligations.RxStartOpensReceiveWindow
  intro chm s hidle
  obtain ⟨t, ht⟩ := exec_completes (.rxStart chm) s
  obtain ⟨-, -, hch⟩ := execRxStart_accepted hidle ht
  refine ⟨t, ht, ?frame, fun c hc => ?named, fun c hc => ?other⟩
  case frame =>
    obtain ⟨hactive, -⟩ | ⟨-, rfl⟩ := execRxStart_cases ht
    · simp [hidle] at hactive
    · rfl
  case named =>
    rw [hch, if_pos hc]
    refine ⟨openWindow_frame s.margin (s.ch c), openWindow_of_not_cal s.margin, fun hcal hzero => ?_, fun hcal hsome => ?_⟩ <;>
      obtain ⟨hthresh, herr⟩ := openWindow_of_cal s.margin hcal <;> rw [hthresh, herr]
    · exact computeThreshold_of_no_samples s.margin hzero
    · exact computeThreshold_of_samples s.margin hsome
  case other =>
    rw [hch, if_neg (by simp [hc])]
    rfl

/-- The phases RX.ABORT cancels, as the model tests them (R134). -/
theorem running_iff_inProgress (k : Channel) : k.running = true ↔ Reference.inProgress k.phase := running_eq_true k

/-- Settles O20: each channel by whether its phase is one RX.ABORT cancels. -/
theorem rxAbortCancelsEverything : Obligations.RxAbortCancelsEverything := by
  unfold Obligations.RxAbortCancelsEverything
  intro s
  obtain ⟨t, ht⟩ := exec_completes .rxAbort s
  have hch := execRxAbort_ch ht
  refine ⟨t, ht, ?frame, ?aborted, fun c => ?channel⟩
  case frame => rw [execRxAbort_cases ht]; rfl
  case aborted =>
    rw [execRxAbort_cases ht]
    simp only [Bool.or_eq_true, anyChan_eq_true, running_iff_inProgress]
  case channel =>
    rw [hch, ← running_iff_inProgress]
    exact ⟨fun h => if_pos h, fun h => if_neg h⟩

/-- Settles O21: the accepting half of EDGE.LOAD's equation, channel by channel and by the room in its buffer. -/
theorem edgeLoadAppendsTimestamp : Obligations.EdgeLoadAppendsTimestamp := by
  unfold Obligations.EdgeLoadAppendsTimestamp
  intro chm x s hrest
  obtain ⟨-, hload⟩ := execEdgeLoad_eq chm x s
  refine ⟨_, hload hrest, rfl, fun c => ?_⟩
  rw [State.mapNamed_ch]
  refine ⟨fun hc => if_neg (by simp [hc]), fun hc hfull => ?full, fun hc hroom => ?room⟩ <;> rw [if_pos hc]
  case full => exact recordEdge_of_full _ x hfull
  case room => exact Reference.edgeRecorded_recordEdge x hroom

/-- Settles O22: the accepting half of DECODE's equation, channel by channel. -/
theorem decodeFillsResultRegisters : Obligations.DecodeFillsResultRegisters := by
  unfold Obligations.DecodeFillsResultRegisters
  intro chm s hrest
  obtain ⟨-, hdecode⟩ := execDecode_eq chm s
  refine ⟨_, hdecode hrest, rfl, fun c => ?_⟩
  rw [State.mapNamed_ch]
  refine ⟨fun hc => if_neg (by simp [hc]), fun hc => ?_⟩
  rw [if_pos hc]
  exact Reference.resultsDecoded_decodeRx (s.ch c)

end Sys2Proof.Machine
end

section
/-! PHASE changes only by the events of 10_state.md R35: each kind of event says which change of PHASE it can make. -/

namespace Sys2Proof.Machine

open Sys2Proof

/-! ### Register accesses -/

theorem busRead_ch (addr : Offset) (s : State) (c : Chan) : (s.busRead addr).ch c = s.ch c := by
  obtain ⟨-, hs⟩ | ⟨-, hs⟩ := busRead_cases addr s <;> rw [hs] <;> exact State.ch_congr rfl rfl c

theorem configWrite_phase {upd : State → State} {s : State} {c : Chan} (hupd : ((upd s).ch c).phase = (s.ch c).phase) :
    ((s.configWrite upd).ch c).phase = (s.ch c).phase := by
  obtain ⟨-, hs⟩ | ⟨-, hs⟩ := configWrite_cases upd s <;> rw [hs]
  · rw [State.raise_ch]
  · exact hupd

theorem setThresh_phase (c : Chan) (v : Half) (s : State) (c' : Chan) : ((s.setThresh c v).ch c').phase = (s.ch c').phase := by
  rw [State.setThresh, State.mapChans_ch]
  split <;> rfl

/-- A register write changes no PHASE. -/
theorem writeReg_phase (v : Word) (r : Reg) (s : State) (c : Chan) :
    ((s.writeReg v r).ch c).phase = (s.ch c).phase := by
  cases r with
  | margin | calSettle | replyTimeout =>
    exact configWrite_phase (congrArg Channel.phase (State.ch_congr rfl rfl c))
  | thresh c' => exact configWrite_phase (setThresh_phase c' _ s c)
  | _ => exact congrArg Channel.phase (State.ch_congr rfl rfl c)

/-! ### Commands -/

/-- A loop over the named channels changes PHASE of a named channel only. -/
theorem mapNamed_phase_ne {chm : ChMask} {f : Channel → Channel} {s : State} {c : Chan}
    (hne : ((s.mapNamed chm f).ch c).phase ≠ (s.ch c).phase) :
    named chm c = true ∧ ((s.mapNamed chm f).ch c).phase = (f (s.ch c)).phase := by
  rw [State.mapNamed_ch] at *
  split at hne
  · next hc => exact ⟨hc, by rw [if_pos hc]⟩
  · exact absurd rfl hne

theorem raise_phase_ne {e : ErrCode} {s : State} {c : Chan} (hne : ((s.raise e).ch c).phase ≠ (s.ch c).phase) : False :=
  hne (by rw [State.raise_ch])

/-- The changes of PHASE that commands make: `commanded` says which commands are given. -/
def PhaseCommanded (commanded : Instr → Prop) (s t : State) (c : Chan) : Prop :=
  ((t.ch c).phase = .idle ∧
    (commanded .rxAbort ∨ (∃ chm, commanded (.chReset chm) ∧ named chm c = true) ∨
      ((s.ch c).phase = .cal ∧ ∃ chm, commanded (.rxStart chm) ∧ named chm c = false))) ∨
  ((t.ch c).phase = .cal ∧ ((s.ch c).phase = .idle ∨ (s.ch c).phase = .done) ∧
    ∃ chm, commanded (.calStart chm) ∧ named chm c = true) ∨
  ((t.ch c).phase = .wait ∧ ∃ chm, commanded (.rxStart chm) ∧ named chm c = true)

/-- RX.START makes a named channel wait and drops the calibration of another. -/
theorem execRxStart_phase {s t : State} {chm : ChMask} (ht : execRxStart chm s = .next t) {c : Chan}
    (hne : (t.ch c).phase ≠ (s.ch c).phase) :
    ((t.ch c).phase = .wait ∧ named chm c = true) ∨
    ((t.ch c).phase = .idle ∧ (s.ch c).phase = .cal ∧ named chm c = false) := by
  obtain ⟨-, rfl⟩ | ⟨hidle, -⟩ := execRxStart_cases ht
  · exact (raise_phase_ne hne).elim
  obtain ⟨-, -, hch⟩ := execRxStart_accepted hidle ht
  rw [hch] at hne ⊢
  cases hc : named chm c with
  | true => exact .inl ⟨by simp, rfl⟩
  | false =>
    simp only [hc, Bool.false_eq_true, if_false, dropCal_phase] at hne ⊢
    by_cases hcal : (s.ch c).phase = .cal
    · exact .inr ⟨if_pos hcal, hcal, trivial⟩
    · exact absurd (if_neg hcal) hne

/-- A command changes PHASE as R35 lists. -/
theorem exec_phase {i : Instr} {s t : State} (h : s.Inv) (ht : exec i s = .next t) {c : Chan}
    (hne : (t.ch c).phase ≠ (s.ch c).phase) : PhaseCommanded (· = i) s t c := by
  cases i with
  | nop | crcInit | crcByte | crcSet =>
    cases ht
    exact absurd (congrArg Channel.phase (State.ch_congr rfl rfl c)) hne
  | chReset chm =>
    obtain ⟨-, rfl⟩ | ⟨-, rfl⟩ := execChReset_cases ht
    · exact (raise_phase_ne hne).elim
    · obtain ⟨hc, hphase⟩ := mapNamed_phase_ne hne
      exact .inl ⟨hphase, .inr (.inl ⟨chm, rfl, hc⟩)⟩
  | calStart chm =>
    obtain ⟨-, rfl⟩ | ⟨hidle, rfl⟩ := execCalStart_cases ht
    · exact (raise_phase_ne hne).elim
    · obtain ⟨hc, hphase⟩ := mapNamed_phase_ne hne
      obtain ⟨hwait, hstarted⟩ := h.phase_of_inactive hidle c
      have hrest : (s.ch c).phase = .idle ∨ (s.ch c).phase = .done := by
        cases hp : (s.ch c).phase with
        | idle => exact .inl rfl
        | done => exact .inr rfl
        | cal => exact absurd (hphase.trans hp.symm) hne
        | wait => exact absurd hp hwait
        | started => exact absurd hp hstarted
      exact .inr (.inl ⟨hphase, hrest, chm, rfl, hc⟩)
  | rxStart chm =>
    obtain ⟨hphase, hc⟩ | ⟨hphase, hcal, hc⟩ := execRxStart_phase ht hne
    · exact .inr (.inr ⟨hphase, chm, rfl, hc⟩)
    · exact .inl ⟨hphase, .inr (.inr ⟨hcal, chm, rfl, hc⟩)⟩
  | rxAbort =>
    rw [execRxAbort_ch ht] at hne
    refine .inl ⟨?_, .inl rfl⟩
    rw [execRxAbort_ch ht]
    split at hne
    · next hrunning => rw [if_pos hrunning, Channel.clearChannel_phase]
    · exact absurd rfl hne
  | edgeLoad chm x =>
    obtain ⟨-, rfl⟩ | ⟨-, rfl⟩ := execEdgeLoad_cases ht
    · exact (raise_phase_ne hne).elim
    · obtain ⟨-, hphase⟩ := mapNamed_phase_ne hne
      exact absurd (hphase.trans (Channel.recordEdge_phase x _)) hne
  | decode chm =>
    obtain ⟨-, rfl⟩ | ⟨-, rfl⟩ := execDecode_cases ht
    · exact (raise_phase_ne hne).elim
    · obtain ⟨-, hphase⟩ := mapNamed_phase_ne hne
      exact absurd (hphase.trans (Channel.decodeRx_phase _)) hne

theorem PhaseCommanded.mono {given given' : Instr → Prop} (hgiven : ∀ i, given i → given' i) {s t : State} {c : Chan}
    (h : PhaseCommanded given s t c) : PhaseCommanded given' s t c := by
  rcases h with ⟨hp, hi | ⟨chm, hi, hc⟩ | ⟨hcal, chm, hi, hc⟩⟩ | ⟨hp, hrest, chm, hi, hc⟩ | ⟨hp, chm, hi, hc⟩
  · exact .inl ⟨hp, .inl (hgiven _ hi)⟩
  · exact .inl ⟨hp, .inr (.inl ⟨chm, hgiven _ hi, hc⟩)⟩
  · exact .inl ⟨hp, .inr (.inr ⟨hcal, chm, hgiven _ hi, hc⟩)⟩
  · exact .inr (.inl ⟨hp, hrest, chm, hgiven _ hi, hc⟩)
  · exact .inr (.inr ⟨hp, chm, hgiven _ hi, hc⟩)

/-- A BusWrite changes PHASE by the command it gives. -/
theorem execBusWrite_phase {addr : Offset} {v : Word} {s t : State} (h : s.Inv) (ht : execBusWrite addr v s = .next t)
    {c : Chan} (hne : (t.ch c).phase ≠ (s.ch c).phase) :
    PhaseCommanded (Reference.commands (.busWrite addr v)) s t c := by
  obtain ⟨-, hw⟩ | ⟨-, hreg, hw⟩ | ⟨-, -, hw⟩ := execBusWrite_cases addr v s <;> rw [hw] at ht
  · cases ht
    exact (raise_phase_ne hne).elim
  · obtain rfl := offset_of_regAt_eq_cmd hreg
    obtain ⟨e, -, hw⟩ | ⟨i, hdecode, hw⟩ := execWord_cases v s <;> rw [hw] at ht
    · cases ht
      exact (raise_phase_ne hne).elim
    · exact (exec_phase h ht hne).mono fun _ hi => ⟨v, rfl, hi ▸ hdecode⟩
  · cases ht
    exact absurd (writeReg_phase v _ s c) hne

/-! ### TICK -/

/-- A TICK starts a waiting channel, or makes a receiving one DONE: no other channel is in a transaction and not DONE. -/
theorem tick_phase {s : State} (h : s.Inv) (s0 s1 : Half) {c : Chan}
    (hne : ((s.tick s0 s1).ch c).phase ≠ (s.ch c).phase) :
    (((s.tick s0 s1).ch c).phase = .started ∧ (s.ch c).phase = .wait) ∨
    (((s.tick s0 s1).ch c).phase = .done ∧ ((s.ch c).phase = .wait ∨ (s.ch c).phase = .started)) := by
  rcases tick_ch_cases s0 s1 s c with ht | ⟨hin, ht⟩ <;> rw [ht] at hne ⊢
  · rcases tick_phase_cases (s.inTxn c) (sampleOf s0 s1 c) (s.ch c) with hsame | ⟨hwait, hstarted⟩ | ⟨hreceiving, hdone⟩
    · exact absurd hsame hne
    · exact .inl ⟨hstarted, hwait⟩
    · exact .inr ⟨hdone, hreceiving⟩
  · rw [complete_phase] at hne ⊢
    obtain ⟨hactive, hmember⟩ := (inTxn_eq_true s c).mp hin
    rcases h.members c hactive hmember with hwait | hstarted | hdone
    · exact .inr ⟨rfl, .inl hwait⟩
    · exact .inr ⟨rfl, .inr hstarted⟩
    · exact absurd hdone.symm hne

/-- Settles O53: by the event. -/
theorem phaseChangesOnlyAsListed : Obligations.PhaseChangesOnlyAsListed := by
  unfold Obligations.PhaseChangesOnlyAsListed
  intro e s t c h ht hne
  cases e with
  | busRead addr =>
    cases ht
    exact absurd (congrArg Channel.phase (busRead_ch addr s c)) hne
  | busWrite addr v =>
    rcases execBusWrite_phase h ht hne with ⟨hp, hby⟩ | ⟨hp, hby⟩ | ⟨hp, hby⟩
    · exact .inl ⟨hp, .inr hby⟩
    · exact .inr (.inl ⟨hp, hby⟩)
    · exact .inr (.inr (.inl ⟨hp, hby⟩))
  | tick s0 s1 =>
    cases ht
    rcases tick_phase h s0 s1 hne with ⟨hp, hwait⟩ | ⟨hp, hreceiving⟩
    · exact .inr (.inr (.inr (.inl ⟨hp, hwait, s0, s1, rfl⟩)))
    · exact .inr (.inr (.inr (.inr ⟨hp, hreceiving, s0, s1, rfl⟩)))
  | reset =>
    cases ht
    refine .inl ⟨?_, .inl rfl⟩
    exact congrArg Channel.phase (State.resetEvent_ch s c)

end Sys2Proof.Machine
end

section
/-! The CRC generator (40_crc.md R110 to R118): the step table, and that a step loses nothing of the register or of the
byte. -/

namespace Sys2Proof.Machine

open Sys2Proof

/-- Settles O11: the three meanings are updates of CRC by definition. -/
theorem nopCrcInitCrcSetResults : Obligations.NopCrcInitCrcSetResults := by
  unfold Obligations.NopCrcInitCrcSetResults
  exact fun s v => ⟨rfl, rfl, rfl⟩

/-! ### The step table (R118) -/

/-- The 256 entries of the table are eight shifts of their index. -/
theorem crcShifts_eq_crcTable : ∀ i : Byte, crcShifts 8 i = Reference.crcTable i := by decide +kernel

/-- Settles O12: the step is eight shifts of CRC XOR the byte. -/
theorem crcByteFollowsStepTable : Obligations.CrcByteFollowsStepTable := by
  unfold Obligations.CrcByteFollowsStepTable
  intro s b
  have hstep : crc8Step s.crc b = Reference.crcTable (s.crc ^^^ b) := crcShifts_eq_crcTable _
  rw [← hstep]
  rfl

/-! ### The residue of a message with its CRC (R112) -/

theorem crcShifts_zero : ∀ n, crcShifts n 0 = 0
  | 0 => rfl
  | n + 1 => crcShifts_zero n

theorem crc8Step_self (c : Byte) : crc8Step c c = 0 := by
  rw [crc8Step, BitVec.xor_self]
  exact crcShifts_zero 8

theorem crc8_append_singleton (d : List Byte) (b : Byte) : crc8 (d ++ [b]) = crc8Step (crc8 d) b := by
  rw [crc8, List.foldl_append]
  rfl

theorem verify8_eq_true (d : List Byte) : verify8 d = true ↔ crc8 d = 0 := by
  simp [verify8]

/-- Settles O13: the last step XORs the register with itself. -/
theorem appendedCrcVerifies : Obligations.AppendedCrcVerifies := by
  unfold Obligations.AppendedCrcVerifies
  intro d
  have hzero : crc8 (d ++ [crc8 d]) = 0 := by rw [crc8_append_singleton, crc8Step_self]
  exact ⟨hzero, (verify8_eq_true _).mpr hzero⟩

/-! ### A step is injective (R120) -/

/-- The bit that leaves at the bottom shows at the top, where the polynomial has a one. -/
theorem crcShift_getLsbD_seven (c : Byte) : (crcShift c).getLsbD 7 = c.getLsbD 0 := by
  unfold crcShift
  split
  · next h => simpa [Config.crcPoly] using h
  · next h => simpa using h

/-- So a shift can be undone: the top bit tells whether the polynomial entered. -/
theorem crcShift_injective : Function.Injective crcShift := by
  intro a b h
  have hlow : a.getLsbD 0 = b.getLsbD 0 := by rw [← crcShift_getLsbD_seven, h, crcShift_getLsbD_seven]
  have hrest : a >>> 1 = b >>> 1 := by
    unfold crcShift at h
    rw [hlow] at h
    split at h
    · exact (BitVec.xor_left_inj _).mp h
    · exact h
  apply BitVec.eq_of_getLsbD_eq
  intro i _
  cases i with
  | zero => exact hlow
  | succ i => simpa [BitVec.getLsbD_ushiftRight, Nat.add_comm] using congrArg (BitVec.getLsbD · i) hrest

theorem crcShifts_injective : ∀ n, Function.Injective (crcShifts n)
  | 0 => fun _ _ h => h
  | n + 1 => (crcShifts_injective n).comp crcShift_injective

theorem crc8Step_injective_byte (c : Byte) : Function.Injective (crc8Step c) := fun _ _ h =>
  (BitVec.xor_right_inj c).mp (crcShifts_injective 8 h)

theorem crc8Step_injective_crc (b : Byte) : Function.Injective (crc8Step · b) := fun _ _ h =>
  (BitVec.xor_left_inj b).mp (crcShifts_injective 8 h)

/-- The bytes that follow keep two different registers apart. -/
theorem foldl_crc8Step_injective : ∀ d : List Byte, Function.Injective (d.foldl crc8Step ·)
  | [] => fun _ _ h => h
  | b :: d => fun _ _ h => crc8Step_injective_crc b (foldl_crc8Step_injective d h)

theorem crc8_append_cons (xs ys : List Byte) (b : Byte) :
    crc8 (xs ++ b :: ys) = ys.foldl crc8Step (crc8Step (crc8 xs) b) := by
  rw [crc8, List.foldl_append]
  rfl

/-- Settles O14: the two messages leave different registers, and only one of them can be 0. -/
theorem changedOctetIsDetected : Obligations.ChangedOctetIsDetected := by
  unfold Obligations.ChangedOctetIsDetected
  intro xs ys b b' hne hverifies
  rw [Bool.eq_false_iff, Ne, verify8_eq_true]
  intro hzero
  have hsame : crc8 (xs ++ b :: ys) = crc8 (xs ++ b' :: ys) := ((verify8_eq_true _).mp hverifies).trans hzero.symm
  rw [crc8_append_cons, crc8_append_cons] at hsame
  exact hne (crc8Step_injective_byte _ (foldl_crc8Step_injective ys hsame))

end Sys2Proof.Machine
end

section
/-! Reads of the register space (20_memory.md R75, R77): the register at each offset, and the fields of the packed words
(10_state.md R28, R34, R38, R45 to R47). -/

namespace Sys2Proof.Machine

open Sys2Proof Sys2Proof.Reference

/-! ### Aligned reads -/

/-- An aligned read returns the register at its offset. -/
theorem deliver_busRead_reg {addr : Offset} {r : Reg} (s : State) (haligned : misaligned addr = false)
    (hreg : regAt addr = r) : deliver (.busRead addr) s = .next { s with rdata := s.readReg r } := by
  obtain ⟨hmis, -⟩ | ⟨-, hread⟩ := busRead_cases addr s
  · simp [haligned] at hmis
  · rw [deliver_busRead, hread, hreg]

/-! ### The blocks of the map (R77) -/

theorem regAt_of_global {addr : Offset} (h : addr.toNat < 0x40) : regAt addr = globalReg addr.toNat := if_pos h

theorem regAt_of_channel {addr : Offset} (c : Chan) {n : Nat} (hn : n < 0x40)
    (h : addr.toNat = 0x40 + 0x40 * c.index + n) : regAt addr = chanReg c n := by
  unfold regAt
  cases c with
  | ch0 =>
    simp only [Chan.index] at h
    have hn' : addr.toNat - 0x40 = n := by omega
    rw [if_neg (by omega), if_pos (by omega), hn']
  | ch1 =>
    simp only [Chan.index] at h
    have hn' : addr.toNat - 0x80 = n := by omega
    rw [if_neg (by omega), if_neg (by omega), if_pos (by omega), hn']

theorem regAt_of_rxb {addr : Offset} (c : Chan) {k : Nat} (hk : k < 4) (h : addr.toNat = 0x100 + 0x10 * c.index + 4 * k) :
    regAt addr = .rxbWord c k := by
  unfold regAt
  cases c with
  | ch0 =>
    simp only [Chan.index] at h
    have hword : (addr.toNat - 0x100) / 4 = k := by omega
    iterate 4 rw [if_neg (by omega)]
    rw [if_pos (by omega), hword]
  | ch1 =>
    simp only [Chan.index] at h
    have hword : (addr.toNat - 0x110) / 4 = k := by omega
    iterate 5 rw [if_neg (by omega)]
    rw [if_pos (by omega), hword]

theorem regAt_of_edge {addr : Offset} (c : Chan) {i : Nat} (hi : i < 160)
    (h : addr.toNat = 0x400 + 0x400 * c.index + 4 * i) : regAt addr = .edge c i := by
  unfold regAt
  cases c with
  | ch0 =>
    simp only [Chan.index] at h
    have hword : (addr.toNat - 0x400) / 4 = i := by omega
    iterate 7 rw [if_neg (by omega)]
    rw [if_pos (by omega), hword]
  | ch1 =>
    simp only [Chan.index] at h
    have hword : (addr.toNat - 0x800) / 4 = i := by omega
    iterate 9 rw [if_neg (by omega)]
    rw [if_pos (by omega), hword]

/-- Between the blocks nothing is mapped. -/
theorem regAt_of_gap {addr : Offset}
    (h : (0x0C0 ≤ addr.toNat ∧ addr.toNat < 0x100) ∨ (0x120 ≤ addr.toNat ∧ addr.toNat < 0x400) ∨
      (0x680 ≤ addr.toNat ∧ addr.toNat < 0x800) ∨ 0xA80 ≤ addr.toNat) : regAt addr = .reserved := by
  unfold regAt
  rcases h with h | h | h | h
  · iterate 3 rw [if_neg (by omega)]
    rw [if_pos (by omega)]
  · iterate 6 rw [if_neg (by omega)]
    rw [if_pos (by omega)]
  · iterate 8 rw [if_neg (by omega)]
    rw [if_pos (by omega)]
  · iterate 10 rw [if_neg (by omega)]

/-- Above PARAMS the global block is reserved. -/
theorem globalReg_of_reserved {n : Nat} (h : 0x024 ≤ n) : globalReg n = .reserved := by
  unfold globalReg
  iterate 9 rw [if_neg (by omega)]

/-- Above HDR the block of a channel is reserved. -/
theorem chanReg_of_reserved (c : Chan) {n : Nat} (h : 0x2C ≤ n) : chanReg c n = .reserved := by
  unfold chanReg
  iterate 11 rw [if_neg (by omega)]

/-- The rows of the map that are reserved. -/
theorem regAt_of_reserved {addr : Offset} (h : reservedOffset addr.toNat) : regAt addr = .reserved := by
  unfold reservedOffset at h
  rcases h with hglobal | hch0 | hch1 | hgap
  · rw [regAt_of_global (by omega), globalReg_of_reserved (by omega)]
  · rw [regAt_of_channel .ch0 (n := addr.toNat - 0x40) (by omega) (by simp only [Chan.index]; omega),
      chanReg_of_reserved _ (by omega)]
  · rw [regAt_of_channel .ch1 (n := addr.toNat - 0x80) (by omega) (by simp only [Chan.index]; omega),
      chanReg_of_reserved _ (by omega)]
  · exact regAt_of_gap (by omega)

/-- Settles O41: the read writes `rdata`, from a register that reads 0 at CMD and at the reserved offsets. -/
theorem alignedReadHasNoSideEffect : Obligations.AlignedReadHasNoSideEffect := by
  unfold Obligations.AlignedReadHasNoSideEffect
  intro addr s haddr
  have haligned := (misaligned_eq_false addr).mpr haddr
  refine ⟨{ s with rdata := s.readReg (regAt addr) }, deliver_busRead_reg s haligned rfl, rfl, ?cmd, ?reserved⟩
  case cmd => rintro rfl; rfl
  case reserved => exact fun h => by rw [regAt_of_reserved h]; rfl

/-- Settles O43: each offset selects its register. -/
theorem globalRegisterReads : Obligations.GlobalRegisterReads := by
  unfold Obligations.GlobalRegisterReads
  exact fun s => ⟨rfl, rfl, rfl, rfl, rfl, rfl, rfl⟩

/-! ### One bit of an appended word -/

theorem getLsbD_append_of_lt {v w i : Nat} {x : BitVec v} {y : BitVec w} (h : i < w) :
    (x ++ y).getLsbD i = y.getLsbD i := by
  rw [BitVec.getLsbD_append, if_pos h]

theorem getLsbD_append_of_le {v w i : Nat} {x : BitVec v} {y : BitVec w} (h : w ≤ i) :
    (x ++ y).getLsbD i = x.getLsbD (i - w) := by
  rw [BitVec.getLsbD_append, if_neg (Nat.not_lt.mpr h)]

/-! ### The registers of a channel -/

theorem chOffset_toNat (c : Chan) {n : Nat} (hn : n < 0x40) : (chOffset c n).toNat = 0x40 + 0x40 * c.index + n := by
  rw [chOffset, BitVec.toNat_ofNat]
  cases c <;> simp only [Chan.index] <;> omega

/-- A read in the block of a channel. -/
theorem deliver_busRead_channel (s : State) (c : Chan) {n : Nat} {r : Reg} (hn : n < 0x40) (haligned : n % 4 = 0)
    (hreg : chanReg c n = r) : deliver (.busRead (chOffset c n)) s = .next { s with rdata := s.readReg r } := by
  refine deliver_busRead_reg s ?_ ((regAt_of_channel c hn (chOffset_toNat c hn)).trans hreg)
  rw [misaligned_eq_false, chOffset_toNat c hn]
  omega

theorem hdrWord_declared (k : Channel) : k.hdrWord.extractLsb' 16 5 = k.declared := by
  simp (disch := decide) only [Channel.hdrWord, BitVec.extractLsb'_append_eq_of_le,
    BitVec.extractLsb'_append_eq_of_add_le]
  simp

/-- Settles O44: each offset of the block selects its register; the fields of the two packed words come apart at their
bounds. -/
theorem channelRegisterReads : Obligations.ChannelRegisterReads := by
  unfold Obligations.ChannelRegisterReads
  intro s c
  refine ⟨(s.ch c).calCntWord, (s.ch c).hdrWord, ?_, ?_, ?_, ?_, ?_, ?_, ?_, ?_, ?_, ?_, ?cnt, ?settle, ?hdr, ?len, ?gap,
    ?top, ?declared⟩
  case cnt => exact BitVec.extractLsb'_append_eq_right
  case settle => exact BitVec.extractLsb'_append_eq_left
  case hdr => exact BitVec.extractLsb'_append_eq_right
  case len =>
    simp (disch := decide) only [Channel.hdrWord, BitVec.extractLsb'_append_eq_of_le,
      BitVec.extractLsb'_append_eq_of_add_le]
    simp [Channel.len]
  case gap =>
    simp (disch := decide) only [Channel.hdrWord, BitVec.extractLsb'_append_eq_of_le,
      BitVec.extractLsb'_append_eq_of_add_le]
    simp
  case top =>
    simp (disch := decide) only [Channel.hdrWord, BitVec.extractLsb'_append_eq_of_le]
    simp
  case declared => rw [← declared_toNat, hdrWord_declared]
  all_goals exact deliver_busRead_channel s c (by decide) (by decide) rfl

/-- Settles O47: the fields of CH_STATUS, bit 0 first. -/
theorem chStatusRegisterFields : Obligations.ChStatusRegisterFields := by
  unfold Obligations.ChStatusRegisterFields
  intro s c
  refine ⟨(s.ch c).statusWord, deliver_busRead_channel s c (by decide) (by decide) rfl, ?phase, ?_⟩
  case phase =>
    have hfield : (s.ch c).statusWord.extractLsb' 0 3 = (s.ch c).phase.code := BitVec.extractLsb'_append_eq_right
    rw [hfield]
    cases (s.ch c).phase <;> rfl
  have hdecErr : (s.ch c).statusWord.extractLsb' 12 2 = (s.ch c).decErr.code := by
    simp (disch := decide) only [Channel.statusWord, BitVec.extractLsb'_append_eq_of_le,
      BitVec.extractLsb'_append_eq_of_add_le]
    simp
  have hcode : (s.ch c).decErr.code.toNat = if (s.ch c).decErr = .missingStart then 1 else 0 := by
    cases (s.ch c).decErr <;> rfl
  rw [hdecErr, hcode]
  refine ⟨?_, ?_, ?_, ?_, ?_, ?_, ?_, ?_, ?_, rfl, ?_, ?_, ?_, ?_⟩ <;>
    simp (disch := decide) only [Channel.statusWord, BitVec.extractLsb'_append_eq_of_le,
      BitVec.extractLsb'_append_eq_of_add_le, getLsbD_append_of_le, getLsbD_append_of_lt] <;>
    simp

/-! ### STATUS (10_state.md R28) -/

theorem irq_eq_true_iff (s : State) : s.irq = true ↔ irqNow s := by
  simp [State.irq, State.ieDone, State.ieErr, irqNow]

theorem statusWord_getLsbD_seven (s : State) : s.statusWord.getLsbD 7 = s.irq := by
  simp (disch := decide) only [State.statusWord, getLsbD_append_of_le, getLsbD_append_of_lt]
  simp

theorem errCode_toNat (e : ErrCode) : e.code.toNat = errNumber e := by
  cases e <;> rfl

/-- Settles O46: the fields of STATUS, bit 0 first. -/
theorem statusRegisterFields : Obligations.StatusRegisterFields := by
  unfold Obligations.StatusRegisterFields
  intro s
  have hcal : s.statusWord.getLsbD 5 = s.calActive := by
    simp (disch := decide) only [State.statusWord, getLsbD_append_of_le, getLsbD_append_of_lt]
    simp
  have hbusy : s.statusWord.getLsbD 6 = s.busy := by
    simp (disch := decide) only [State.statusWord, getLsbD_append_of_le, getLsbD_append_of_lt]
    simp
  have herr : s.statusWord.extractLsb' 16 4 = s.lastErr.code := by
    simp (disch := decide) only [State.statusWord, BitVec.extractLsb'_append_eq_of_le,
      BitVec.extractLsb'_append_eq_of_add_le]
    simp
  refine ⟨s.statusWord, rfl, ?_⟩
  rw [statusWord_getLsbD_four, crcZero_eq_true, hcal, calActive_eq_true, hbusy, ← busyNow_iff, statusWord_getLsbD_seven,
    irq_eq_true_iff, herr, errCode_toNat]
  refine ⟨?_, ?_, ?_, ?_, Iff.rfl, Iff.rfl, Iff.rfl, Iff.rfl, ?_, ?_, rfl, ?_⟩ <;>
    simp (disch := decide) only [State.statusWord, BitVec.extractLsb'_append_eq_of_le,
      BitVec.extractLsb'_append_eq_of_add_le, getLsbD_append_of_le, getLsbD_append_of_lt] <;>
    simp

/-! ### The buffers (10_state.md R46, R47) -/

theorem rxbOffset_toNat (c : Chan) {k : Nat} (hk : k < 4) :
    (BitVec.ofNat 12 (0x100 + 0x10 * c.index + 4 * k)).toNat = 0x100 + 0x10 * c.index + 4 * k := by
  rw [BitVec.toNat_ofNat]
  cases c <;> simp only [Chan.index] <;> omega

theorem edgeOffset_toNat (c : Chan) {i : Nat} (hi : i < 160) :
    (BitVec.ofNat 12 (0x400 + 0x400 * c.index + 4 * i)).toNat = 0x400 + 0x400 * c.index + 4 * i := by
  rw [BitVec.toNat_ofNat]
  cases c <;> simp only [Chan.index] <;> omega

theorem rxb_getElem? (k : Channel) {j : Nat} (hj : j < 16) : k.rxb[j]? = some (k.octet j) := by
  simp [Channel.octet, hj]

/-- Octet 4i+j stands in bits [8j+7:8j] of word i (20_memory.md R73). -/
theorem rxbWord_octet (k : Channel) (i : Nat) {j : Nat} (hj : j < 4) :
    (k.rxbWord i).extractLsb' (8 * j) 8 = k.octet (4 * i + j) := by
  interval_cases j <;>
    simp (disch := decide) only [Channel.rxbWord, BitVec.extractLsb'_append_eq_of_le,
      BitVec.extractLsb'_append_eq_of_add_le] <;>
    simp

/-- E[i] as read, below EDGE_CNT. -/
theorem edgeWord_of_recorded {k : Channel} {i : Nat} (hi : i < 160) (h : i < k.edgeCnt.toNat) :
    k.edges[i]? = some ((k.edgeWord i).setWidth 16) ∧ (k.edgeWord i).toNat < 65536 := by
  have hlt := (k.edges[i]?.getD 0).isLt
  rw [Channel.edgeWord, if_pos h, BitVec.toNat_setWidth]
  exact ⟨by simp [hi], by omega⟩

/-- Settles O45: each offset selects its word, whose octets or entry are those of the buffer. -/
theorem bufferWordReads : Obligations.BufferWordReads := by
  unfold Obligations.BufferWordReads
  intro s c
  refine ⟨fun k hk => ⟨(s.ch c).rxbWord k, ?rxb, fun j hj => ?octet⟩,
    fun i hi => ⟨(s.ch c).edgeWord i, ?edge, edgeWord_of_recorded hi, fun h => ?clear⟩⟩
  case rxb =>
    refine deliver_busRead_reg s ?_ (regAt_of_rxb c hk (rxbOffset_toNat c hk))
    rw [misaligned_eq_false, rxbOffset_toNat c hk]
    omega
  case octet => rw [rxbWord_octet _ _ hj, rxb_getElem? _ (by omega)]
  case edge =>
    refine deliver_busRead_reg s ?_ (regAt_of_edge c hi (edgeOffset_toNat c hi))
    rw [misaligned_eq_false, edgeOffset_toNat c hi]
    omega
  case clear => exact if_neg (Nat.not_lt.mpr h)

end Sys2Proof.Machine
end

section
/-! Writes to CTRL, STATUS and the read-only offsets (10_state.md R24, R28, 20_memory.md R76), and the interrupt level they
acknowledge (60_exceptions.md R207, R208). -/

namespace Sys2Proof.Machine

open Sys2Proof Sys2Proof.Reference

/-! ### Read-only offsets (20_memory.md R76) -/

/-- The registers, CMD apart, that a write can change. -/
def writableRegs : List Reg := .ctrl :: .status :: paramRegs

theorem writeReg_of_not_writable {r : Reg} (hr : r ∉ writableRegs) (v : Word) (s : State) : s.writeReg v r = s := by
  cases r with
  | ctrl | status | margin | calSettle | replyTimeout => simp [writableRegs, paramRegs] at hr
  | thresh c => cases c <;> simp [writableRegs, paramRegs] at hr
  | _ => rfl

theorem ite_notMem {p : Prop} [Decidable p] {r r' : Reg} {rs : List Reg} (hr : p → r ∉ rs) (hr' : ¬ p → r' ∉ rs) :
    (if p then r else r') ∉ rs := by
  split
  · next h => exact hr h
  · next h => exact hr' h

theorem globalReg_not_writable {n : Nat} (h : n ∉ [0x004, 0x008, 0x00C, 0x014, 0x018, 0x01C]) :
    globalReg n ∉ .cmd :: writableRegs := by
  simp only [List.mem_cons, List.not_mem_nil, or_false, not_or] at h
  obtain ⟨hctrl, hstatus, hcmd, hmargin, hsettle, htimeout⟩ := h
  unfold globalReg
  rw [if_neg hctrl, if_neg hstatus, if_neg hcmd, if_neg hmargin, if_neg hsettle, if_neg htimeout]
  repeat' refine ite_notMem (fun _ => ?_) fun _ => ?_
  all_goals simp [writableRegs, paramRegs]

theorem chanReg_not_writable (c : Chan) {n : Nat} (h : n ≠ 0x04) : chanReg c n ∉ .cmd :: writableRegs := by
  unfold chanReg
  rw [if_neg h]
  repeat' refine ite_notMem (fun _ => ?_) fun _ => ?_
  all_goals simp [writableRegs, paramRegs]

/-- Eight offsets select CMD or a register that a write can change (R77). -/
theorem regAt_not_writable {addr : Offset}
    (h : addr ∉ ([0x004, 0x008, 0x00C, 0x014, 0x018, 0x01C, 0x044, 0x084] : List Offset)) :
    regAt addr ∉ .cmd :: writableRegs := by
  simp only [List.mem_cons, List.not_mem_nil, or_false, not_or, BitVec.toNat_eq, BitVec.ofNat_eq_ofNat,
    BitVec.toNat_ofNat] at h
  unfold regAt
  refine ite_notMem (fun _ => globalReg_not_writable ?_) fun _ => ite_notMem (fun _ => chanReg_not_writable .ch0 ?_)
    fun _ => ite_notMem (fun _ => chanReg_not_writable .ch1 ?_) fun _ => ?_
  · simp only [List.mem_cons, List.not_mem_nil, or_false]
    omega
  · omega
  · omega
  repeat' refine ite_notMem (fun _ => ?_) fun _ => ?_
  all_goals simp [writableRegs, paramRegs]

/-- Settles O50: the offset selects a register that ignores the write. -/
theorem readOnlyWritesAreIgnored : Obligations.ReadOnlyWritesAreIgnored := by
  unfold Obligations.ReadOnlyWritesAreIgnored
  intro addr v s haddr hro
  have hreg := regAt_not_writable hro
  rw [List.mem_cons, not_or] at hreg
  obtain ⟨hcmd, hwritable⟩ := hreg
  rw [deliver_busWrite_reg v s ((misaligned_eq_false addr).mpr haddr) rfl hcmd, writeReg_of_not_writable hwritable]

/-! ### CTRL and STATUS -/

theorem deliver_write_ctrl (s : State) (v : Word) :
    deliver (.busWrite 0x004 v) s = .next { s with ctrl := v.extractLsb' 0 2 } := by
  have hlow : v.setWidth 2 = v.extractLsb' 0 2 := BitVec.setWidth_eq_extractLsb' (by decide)
  rw [deliver_busWrite_reg v s (by decide) (r := .ctrl) rfl (by simp), ← hlow]
  rfl

theorem deliver_write_status (s : State) (v : Word) : deliver (.busWrite 0x008 v) s = .next (s.ackStatus v) :=
  deliver_busWrite_reg v s (by decide) (r := .status) rfl (by simp)

theorem and_not_eq_ite (x b : Bool) : (x && !b) = if b then false else x := by
  cases b <;> simp

/-- Settles O48: the two writes, with W1C written as a choice. -/
theorem controlAndStatusWrites : Obligations.ControlAndStatusWrites := by
  unfold Obligations.ControlAndStatusWrites
  intro s v
  refine ⟨deliver_write_ctrl s v, ?_⟩
  rw [deliver_write_status]
  simp only [State.ackStatus, and_not_eq_ite]

/-- The W1C of DONE alone. -/
theorem ackStatus_done_only (s : State) : s.ackStatus 0x2 = { s with done := false } := by
  simp [State.ackStatus]

/-- The W1C of ERR alone takes LAST_ERR with it. -/
theorem ackStatus_err_only (s : State) : s.ackStatus 0x4 = { s with err := false, lastErr := .none } := by
  simp [State.ackStatus]

/-- Settles O51: the level by `irqNow`, and each acknowledgement by the write, read or command that makes it. -/
theorem interruptLevelAndAcknowledge : Obligations.InterruptLevelAndAcknowledge := by
  unfold Obligations.InterruptLevelAndAcknowledge
  refine ⟨fun s => ⟨irq_eq_true_iff s, statusWord_getLsbD_seven s⟩, fun s => ⟨?ackDone, ?_⟩, fun s => ⟨?ackErr, ?_⟩,
    fun s t chm hidle h => ?rxStart, fun s => ⟨deliver_write_ctrl s 0, ?disabled⟩, fun s t h => ?read, fun s t h => ?abort⟩
  case ackDone => rw [deliver_write_status, ackStatus_done_only]
  case ackErr => rw [deliver_write_status, ackStatus_err_only]
  case rxStart =>
    obtain ⟨hactive, -⟩ | ⟨-, rfl⟩ := execRxStart_cases h
    · simp [hidle] at hactive
    · rfl
  case disabled => simp [State.irq, State.ieDone, State.ieErr]
  case read =>
    cases h
    exact ⟨rfl, rfl, rfl, rfl⟩
  case abort =>
    rw [execRxAbort_cases h]
    rfl
  all_goals simp [irq_eq_true_iff, irqNow]

end Sys2Proof.Machine
end

section
/-! Rows of TICKs during a transaction (42_edge_detector.md R150 to R160): every channel of it moves on to the end of its
window, so the transaction ends; and with idle completion off a channel of it has its own ChannelTicks until it is DONE. -/

namespace Sys2Proof.Machine

open Sys2Proof

/-! ### The sample index -/

@[simp] theorem Channel.recordEdge_sampleIdx (t : Half) (k : Channel) : (k.recordEdge t).sampleIdx = k.sampleIdx := by
  rw [recordEdge_frame]

@[simp] theorem Channel.headerCheck_sampleIdx (k : Channel) : k.headerCheck.sampleIdx = k.sampleIdx := by
  obtain ⟨-, -, hk⟩ | ⟨-, hk⟩ := headerCheck_cases k <;> rw [hk]
  rw [headerDecode_frame]

@[simp] theorem Channel.waitSample_sampleIdx (x : Half) (k : Channel) : (k.waitSample x).sampleIdx = k.sampleIdx := by
  obtain ⟨-, hk⟩ | ⟨-, hk⟩ := waitSample_cases x k <;> simp [hk]

@[simp] theorem Channel.startedSample_sampleIdx (x : Half) (k : Channel) : (k.startedSample x).sampleIdx = k.sampleIdx := by
  obtain ⟨-, hk⟩ | ⟨-, hk⟩ := startedSample_cases x k <;> simp [hk]

/-- A receiving channel ends, or its index advances inside the window. -/
theorem Channel.Sampled.advance_progress {k : Channel} (h : k.Sampled) :
    k.advance.phase = .done ∨
      (k.advance.sampleIdx.toNat = k.sampleIdx.toNat + 1 ∧ k.advance.sampleIdx.toNat < 1590) := by
  have hidx := sampleIdx_succ h.window.1
  obtain ⟨hlt, hk⟩ | ⟨-, hk⟩ := Reference.advance_cases k <;> rw [hk]
  · exact .inr ⟨hidx, Nat.lt_of_lt_of_le hlt h.window.2⟩
  · exact .inl rfl

/-- From k to k' a channel of a transaction is DONE, or it was not DONE and its index advanced inside the window. -/
def Progressed (k k' : Channel) : Prop :=
  k'.phase = .done ∨
    (k.phase ≠ .done ∧ k'.sampleIdx.toNat = k.sampleIdx.toNat + 1 ∧ k'.sampleIdx.toNat < 1590)

theorem Channel.Inv.tick_progressed {k : Channel} (h : k.Inv) (b : Bool) (x : Half)
    (hphase : k.phase = .wait ∨ k.phase = .started ∨ k.phase = .done) : Progressed k (k.tick b x) := by
  rcases hphase with hp | hp | hp
  · have hprogress := ((h.sampled (.inl hp)).waitSample hp x).advance_progress
    rw [Channel.waitSample_sampleIdx, ← tick_of_wait b x k hp] at hprogress
    exact hprogress.imp_right fun hidx => ⟨by simp [hp], hidx⟩
  · have hprogress := ((h.sampled (.inr hp)).startedSample hp x).headerCheck.advance_progress
    rw [Channel.headerCheck_sampleIdx, Channel.startedSample_sampleIdx, ← tick_of_started b x k hp] at hprogress
    exact hprogress.imp_right fun hidx => ⟨by simp [hp], hidx⟩
  · rw [tick_of_done b x k hp]
    left
    split <;> exact hp

/-! ### The end of the transaction (R160) -/

/-- No TICK begins a transaction. -/
theorem tick_inactive {s : State} (h : s.txnActive = false) (s0 s1 : Half) : (s.tick s0 s1).txnActive = false := by
  rcases completionCheck_cases (s.tickChannels s0 s1) with ⟨-, ht⟩ | ⟨-, ht⟩ <;> rw [State.tick, ht]
  exact h

theorem runTicks_inactive (xs : List (Half × Half)) {s : State} (h : s.txnActive = false) :
    (runTicks xs s).txnActive = false := by
  induction xs generalizing s with
  | nil => exact h
  | cons x xs ih => exact ih (tick_inactive h x.1 x.2)

/-- A transaction that goes on after a TICK has a channel that is not DONE. -/
theorem exists_not_done_of_active {s : State} {s0 s1 : Half} (h : (s.tick s0 s1).txnActive = true) :
    ∃ c, named s.txnMask c = true ∧ ((s.tick s0 s1).ch c).phase ≠ .done := by
  rcases completionCheck_cases (s.tickChannels s0 s1) with ⟨-, ht⟩ | ⟨hgoes, ht⟩ <;> rw [State.tick, ht] at h ⊢
  · simp at h
  by_contra hall
  push Not at hall
  have hends := (Reference.completes_eq_true_iff (s.tickChannels s0 s1)).mpr ⟨h, .inl hall⟩
  simp [hgoes] at hends

/-- A channel of a transaction after a TICK, whether or not the TICK ends it. -/
theorem State.Inv.tick_progressed {s : State} (h : s.Inv) (s0 s1 : Half) {c : Chan} (hactive : s.txnActive = true)
    (hc : named s.txnMask c = true) : Progressed (s.ch c) ((s.tick s0 s1).ch c) := by
  rcases tick_ch_cases s0 s1 s c with ht | ⟨-, ht⟩ <;> rw [ht]
  · exact (h.chans c).tick_progressed _ _ (h.members c hactive hc)
  · exact .inl (complete_phase _)

/-- A transaction that goes on keeps its mask. -/
theorem tick_txnMask_of_active {s : State} {s0 s1 : Half} (h : (s.tick s0 s1).txnActive = true) :
    (s.tick s0 s1).txnMask = s.txnMask := by
  rcases completionCheck_cases (s.tickChannels s0 s1) with ⟨-, ht⟩ | ⟨-, ht⟩ <;> rw [State.tick, ht] at h ⊢
  · simp at h
  · rfl

/-- The channels of the transaction are DONE or have come at least to index n, and the row is long enough for the rest. -/
theorem runTicks_ends {n : Nat} {xs : List (Half × Half)} {s : State} (h : s.Inv) (hxs : xs ≠ [])
    (hlen : 1590 ≤ n + xs.length)
    (hn : ∀ c, named s.txnMask c = true → (s.ch c).phase ≠ .done → n ≤ (s.ch c).sampleIdx.toNat) :
    (runTicks xs s).txnActive = false := by
  induction xs generalizing n s with
  | nil => exact absurd rfl hxs
  | cons x xs ih =>
    rw [runTicks_cons]
    cases hactive : (s.tick x.1 x.2).txnActive with
    | false => exact runTicks_inactive xs hactive
    | true =>
      have hactive' : s.txnActive = true := by
        by_contra hs
        simp [tick_inactive (Bool.eq_false_iff.mpr hs)] at hactive
      have hnext : ∀ c, named s.txnMask c = true → ((s.tick x.1 x.2).ch c).phase ≠ .done →
          n + 1 ≤ ((s.tick x.1 x.2).ch c).sampleIdx.toNat ∧ ((s.tick x.1 x.2).ch c).sampleIdx.toNat < 1590 := by
        intro c hc hgoes
        obtain hdone | ⟨hbefore, hidx, hlt⟩ := h.tick_progressed x.1 x.2 hactive' hc
        · exact absurd hdone hgoes
        · exact ⟨hidx ▸ Nat.succ_le_succ (hn c hc hbefore), hlt⟩
      obtain ⟨c, hc, hgoes⟩ := exists_not_done_of_active hactive
      obtain ⟨hle, hlt⟩ := hnext c hc hgoes
      rw [List.length_cons] at hlen
      have hrest : xs ≠ [] := List.ne_nil_of_length_pos (by omega)
      refine ih (n := n + 1) (h.tick x.1 x.2) hrest (by omega) fun c hc hgoes => ?_
      rw [tick_txnMask_of_active hactive] at hc
      obtain ⟨hle, -⟩ := hnext c hc hgoes
      exact hle

/-- Settles O39: every index is at least 0, and 1590 TICKs take it past every window. -/
theorem transactionEndsWithin1590Ticks : Obligations.TransactionEndsWithin1590Ticks := by
  unfold Obligations.TransactionEndsWithin1590Ticks
  intro s xs h _ hlen
  exact runTicks_ends (n := 0) h (List.ne_nil_of_length_pos (by omega)) (by omega) fun _ _ _ => Nat.zero_le _

/-! ### A channel of a transaction without idle completion -/

/-- The ChannelTicks of channel c, as a member of the transaction. -/
def channelTicks (c : Chan) (xs : List (Half × Half)) (k : Channel) : Channel :=
  xs.foldl (fun k x => k.tick true (sampleOf x.1 x.2 c)) k

@[simp] theorem channelTicks_nil (c : Chan) (k : Channel) : channelTicks c [] k = k := rfl

@[simp] theorem channelTicks_cons (c : Chan) (x : Half × Half) (xs : List (Half × Half)) (k : Channel) :
    channelTicks c (x :: xs) k = channelTicks c xs (k.tick true (sampleOf x.1 x.2 c)) := rfl

theorem channelTicks_take_succ (c : Chan) {xs : List (Half × Half)} {n : Nat} {x : Half × Half} (h : xs[n]? = some x)
    (k : Channel) :
    channelTicks c (xs.take (n + 1)) k = (channelTicks c (xs.take n) k).tick true (sampleOf x.1 x.2 c) := by
  rw [List.take_add_one, h, channelTicks, List.foldl_append]
  rfl

theorem channelTicks_thresh (c : Chan) (xs : List (Half × Half)) (k : Channel) :
    (channelTicks c xs k).thresh = k.thresh := by
  induction xs generalizing k with
  | nil => rfl
  | cons x xs ih => rw [channelTicks_cons, ih, Channel.tick_thresh]

/-- Without idle completion a TICK ends the transaction only when its channels are DONE, and so leaves each of them as its
ChannelTick; while one is not DONE the transaction goes on. -/
theorem tick_ch_of_no_timeout {s : State} {c : Chan} (s0 s1 : Half) (hin : s.inTxn c = true) (htimeout : s.replyTimeout = 0) :
    (s.tick s0 s1).ch c = (s.ch c).tick true (sampleOf s0 s1 c) ∧
    (((s.tick s0 s1).ch c).phase ≠ .done → (s.tick s0 s1).inTxn c = true) := by
  obtain ⟨-, hnamed⟩ := (inTxn_eq_true s c).mp hin
  have hch := tickChannels_ch s0 s1 s c
  rw [hin] at hch
  rcases completionCheck_cases (s.tickChannels s0 s1) with ⟨hends, -⟩ | ⟨-, ht⟩
  · obtain ⟨-, hdone | ⟨hon, -⟩⟩ := (Reference.completes_eq_true_iff _).mp hends
    · have hleft := completionCheck_ch_of_done (s.tickChannels s0 s1) c (hdone c hnamed)
      rw [State.tick, hleft, hch]
      exact ⟨rfl, fun hgoes => absurd (hch ▸ hdone c hnamed) hgoes⟩
    · exact absurd htimeout hon
  · rw [State.tick, ht, hch]
    exact ⟨rfl, fun _ => hin⟩

theorem tick_replyTimeout (s0 s1 : Half) (s : State) : (s.tick s0 s1).replyTimeout = s.replyTimeout := by
  rw [tick_frame]

/-- So a channel that is not DONE before the last TICK of a row has its own ChannelTicks only. -/
theorem runTicks_ch {c : Chan} {xs : List (Half × Half)} {s : State} (hin : s.inTxn c = true) (htimeout : s.replyTimeout = 0)
    (hgoes : ∀ n, n < xs.length → (channelTicks c (xs.take n) (s.ch c)).phase ≠ .done) :
    (runTicks xs s).ch c = channelTicks c xs (s.ch c) := by
  induction xs generalizing s with
  | nil => rfl
  | cons x xs ih =>
    obtain ⟨hch, hin'⟩ := tick_ch_of_no_timeout x.1 x.2 hin htimeout
    rw [runTicks_cons, channelTicks_cons, ← hch]
    cases xs with
    | nil => rfl
    | cons y ys =>
      have hfirst := hgoes 1 (by simp)
      simp only [List.take_succ_cons, List.take_zero, channelTicks_cons, channelTicks_nil, ← hch] at hfirst
      refine ih (hin' hfirst) ((tick_replyTimeout _ _ s).trans htimeout) fun n hn => ?_
      rw [hch]
      exact hgoes (n + 1) (by simpa using hn)

/-! ### A silent channel -/

theorem satInc_iterate_toNat (n : Nat) (v : Half) : (satInc^[n] v).toNat = min 65535 (v.toNat + n) := by
  induction n with
  | zero =>
    have hv := v.isLt
    rw [Function.iterate_zero_apply]
    omega
  | succ n ih =>
    rw [Function.iterate_succ_apply', satInc_toNat, ih]
    omega

/-- A waiting channel after n low samples. -/
def silentAfter (n : Nat) (k : Channel) : Channel :=
  { k with sampleIdx := BitVec.ofNat 16 n, idleCnt := satInc^[n] k.idleCnt }

theorem silentAfter_zero {k : Channel} (h : k.sampleIdx = 0) : silentAfter 0 k = k := by
  rw [silentAfter, ← BitVec.ofNat_eq_ofNat, ← h]
  rfl

/-- The tick of a waiting channel with a low sample: both counters advance, and the window may end. -/
theorem tick_of_wait_low {k : Channel} (b : Bool) {x : Half} (hwait : k.phase = .wait) (hlow : ¬ k.thresh < x) :
    let k' := { k with sampleIdx := k.sampleIdx + 1, idleCnt := satInc k.idleCnt }
    (k.sampleIdx + 1 < k.endIdx → k.tick b x = k') ∧ (k.endIdx ≤ k.sampleIdx + 1 → k.tick b x = k'.finalize) := by
  rw [tick_of_wait b x k hwait, Reference.waitSample_of_low (decide_eq_false hlow)]
  exact ⟨Reference.advance_of_before (k := { k with idleCnt := satInc k.idleCnt }),
    Reference.advance_of_end (k := { k with idleCnt := satInc k.idleCnt })⟩

/-- One more low sample in the window of 1590. -/
theorem tick_silentAfter {k : Channel} {x : Half} (hwait : k.phase = .wait) (hend : k.endIdx = 1590)
    (hlow : ¬ k.thresh < x) {n : Nat} (hn : n < 1590) :
    (silentAfter n k).tick true x =
      if n + 1 < 1590 then silentAfter (n + 1) k else (silentAfter (n + 1) k).finalize := by
  have hsucc : { silentAfter n k with
      sampleIdx := (silentAfter n k).sampleIdx + 1, idleCnt := satInc (silentAfter n k).idleCnt } =
      silentAfter (n + 1) k := by
    simp only [silentAfter, Function.iterate_succ_apply', BitVec.ofNat_add, BitVec.ofNat_eq_ofNat]
  have hidx : ((silentAfter n k).sampleIdx + 1).toNat = n + 1 := by
    have hn' : (BitVec.ofNat 16 n).toNat = n := Nat.mod_eq_of_lt (by omega)
    exact (sampleIdx_succ (i := BitVec.ofNat 16 n) (by omega)).trans (congrArg (· + 1) hn')
  have hendIdx : (silentAfter n k).endIdx.toNat = 1590 := by
    simp [silentAfter, hend]
  obtain ⟨hbefore, hafter⟩ := tick_of_wait_low (k := silentAfter n k) true hwait hlow
  rw [hsucc, BitVec.lt_def, hidx, hendIdx] at hbefore
  rw [hsucc, BitVec.le_def, hidx, hendIdx] at hafter
  split
  · next h => exact hbefore h
  · next h => exact hafter (by omega)

/-- Inside the window a silent channel only counts. -/
theorem channelTicks_of_silent {c : Chan} {k : Channel} {xs : List (Half × Half)} (hwait : k.phase = .wait)
    (hidx : k.sampleIdx = 0) (hend : k.endIdx = 1590) (hlow : ∀ x ∈ xs, ¬ k.thresh < sampleOf x.1 x.2 c) {n : Nat}
    (hn : n ≤ xs.length) (hwindow : n < 1590) : channelTicks c (xs.take n) k = silentAfter n k := by
  induction n with
  | zero => exact (silentAfter_zero hidx).symm
  | succ n ih =>
    have hx := List.getElem?_eq_getElem (l := xs) (i := n) (by omega)
    rw [channelTicks_take_succ c hx, ih (by omega) (by omega),
      tick_silentAfter hwait hend (hlow _ (List.getElem_mem _)) (by omega), if_pos hwindow]

/-- With no edge the results are those of no bits (43_bit_sync.md R187). -/
theorem decodeRx_of_empty {k : Channel} (hcnt : k.edgeCnt = 0) (hok : k.hdrOk = false) :
    k.decodeRx =
      { k with
        rxb := Vector.replicate 16 0, nbits := 0, decErr := .none, zrunCnt := 0, zeroRun := false, valid := false
        octCnt := 0 } := by
  have hbits : processBits k.edgeList Config.capBits = ⟨[], 0, .none, 0⟩ := by rw [edgeList_of_none k hcnt]; rfl
  have hrxb : (Vector.ofFn fun j : Fin 16 => octetAt [] j.val) = Vector.replicate 16 0 := by
    ext j hj
    simp [octetAt, bitsValue]
  simp [Channel.decodeRx, hbits, hrxb, hcnt, Channel.declared, hok]

/-- A silent channel finalized at index n. -/
theorem finalize_silentAfter {k : Channel} (n : Nat) (hcnt : k.edgeCnt = 0) (hok : k.hdrOk = false) :
    let k' := (silentAfter n k).finalize
    k' = { k with
      phase := .done, sampleIdx := BitVec.ofNat 16 n, idleCnt := k'.idleCnt, rxb := Vector.replicate 16 0, nbits := 0
      decErr := .none, zrunCnt := 0, zeroRun := false, valid := false, octCnt := 0 } ∧
    k'.idleCnt.toNat = min 65535 (k.idleCnt.toNat + n) := by
  have hresults := decodeRx_of_empty (k := silentAfter n k) hcnt hok
  rw [Channel.finalize, hresults]
  exact ⟨rfl, satInc_iterate_toNat n _⟩

/-- Settles O58: 1589 low samples that count, and one that ends the window with no edge recorded. -/
theorem silentChannelEndsInvalid : Obligations.SilentChannelEndsInvalid := by
  unfold Obligations.SilentChannelEndsInvalid
  intro s c xs hin htimeout hwait hidx hcnt hend hok hlen hlow k
  have hsilent : ∀ n, n < 1590 → channelTicks c (xs.take n) (s.ch c) = silentAfter n (s.ch c) := fun n hn =>
    channelTicks_of_silent hwait hidx hend hlow (by omega) hn
  have hx := List.getElem?_eq_getElem (l := xs) (i := 1589) (by omega)
  have hk : k = (silentAfter 1590 (s.ch c)).finalize := by
    calc k = channelTicks c xs (s.ch c) := by
          refine runTicks_ch hin htimeout fun n hn => ?_
          rw [hsilent n (by omega)]
          simp [silentAfter, hwait]
      _ = channelTicks c (xs.take (1589 + 1)) (s.ch c) := by rw [List.take_of_length_le (by omega)]
      _ = (silentAfter 1590 (s.ch c)).finalize := by
          rw [channelTicks_take_succ c hx, hsilent 1589 (by omega),
            tick_silentAfter hwait hend (hlow _ (List.getElem_mem _)) (by omega), if_neg (by omega)]
  rw [hk]
  exact finalize_silentAfter 1590 hcnt hok

end Sys2Proof.Machine
end

section
/-! The decoder on the reference waveform (43_bit_sync.md R191) with each edge off by at most 2 ticks (R192). Every octet
group ends in an edge, the next start bit, except the last one before a line that stays at its level; the walk is followed
from edge to edge inside a group, and from group to group. -/

namespace Sys2Proof.Reference

open Sys2Proof Sys2Proof.Machine

/-! ### Displaced edges (R192) -/

/-- The timestamps differ by at most 2 ticks. -/
def Close (a b : Nat) : Prop := a ≤ b + 2 ∧ b ≤ a + 2

theorem Close.refl (a : Nat) : Close a a := ⟨Nat.le_add_right a 2, Nat.le_add_right a 2⟩

theorem close_self (times : List Nat) : List.Forall₂ Close times times := List.forall₂_same.mpr fun a _ => Close.refl a

/-- The gap of two displaced edges still rounds to its number of bit periods. -/
theorem gapBits_of_close {a b t m : Nat} (ha : Close a t) (hb : Close b (t + 10 * m)) (h1 : 1 ≤ m) (h9 : m ≤ 9) :
    gapBits (BitVec.ofNat 16 b - BitVec.ofNat 16 a) = m := by
  obtain ⟨ha1, ha2⟩ := ha
  obtain ⟨hb1, hb2⟩ := hb
  rw [gapBits_eq_iff, gap_toNat, BitVec.toNat_ofNat, BitVec.toNat_ofNat]
  omega

/-! ### The changes of level (R191) -/

theorem changeTimes_same (t : Nat) (l : Bool) (ls : List Bool) :
    changeTimes t l (l :: ls) = changeTimes (t + 10) l ls := if_pos rfl

theorem changeTimes_change (t : Nat) (l : Bool) (ls : List Bool) :
    changeTimes t l ((!l) :: ls) = t :: changeTimes (t + 10) (!l) ls := if_neg (by simp)

/-- A line that stays at its level has no changes. -/
theorem changeTimes_replicate (t : Nat) (l : Bool) (r : Nat) : changeTimes t l (List.replicate r l) = [] := by
  induction r generalizing t with
  | zero => rfl
  | succ r ih => rw [List.replicate_succ, changeTimes_same, ih]

theorem changeTimes_append (t : Nat) (l : Bool) (ls ls' : List Bool) :
    changeTimes t l (ls ++ ls') = changeTimes t l ls ++ changeTimes (t + 10 * ls.length) (ls.getLastD l) ls' := by
  induction ls generalizing t l with
  | nil => simp [changeTimes]
  | cons b ls ih =>
    have ht : t + 10 + 10 * ls.length = t + 10 * (b :: ls).length := by rw [List.length_cons]; omega
    rw [List.cons_append, List.getLastD_cons]
    by_cases hb : b = l
    · subst hb
      rw [changeTimes_same, changeTimes_same, ih, ht]
    · obtain rfl : b = !l := Bool.eq_not_of_ne hb
      rw [changeTimes_change, changeTimes_change, ih, ht, List.cons_append]

theorem changeTimes_append_level (t : Nat) (l : Bool) (ls : List Bool) (r : Nat) :
    changeTimes t l (ls ++ List.replicate r (ls.getLastD l)) = changeTimes t l ls := by
  rw [changeTimes_append, changeTimes_replicate, List.append_nil]

/-! ### The walk with the level it ends at (R182, R185) -/

/-- The level after n more edges. -/
def levelAfter : Bool → Nat → Bool
  | lvl, 0 => lvl
  | lvl, n + 1 => levelAfter (!lvl) n

theorem levelAfter_eq (lvl : Bool) (n : Nat) : levelAfter lvl n = if n % 2 = 0 then lvl else !lvl := by
  induction n generalizing lvl with
  | zero => rfl
  | succ n ih =>
    rw [levelAfter, ih, Bool.not_not]
    rcases Nat.mod_two_eq_zero_or_one n with hn | hn
    · rw [if_pos hn, if_neg (by omega)]
    · rw [if_neg (by omega), if_pos (by omega)]

/-- The walk of process_bits, and the level after its last edge. -/
def walkEnd (cap : Nat) (lvl : Bool) (e : Half) (rest : List Half) (a : BitAcc) : BitAcc × Bool :=
  (walkEdges cap lvl e rest a, levelAfter lvl rest.length)

/-- The data bits of a run of m bit periods that begins at place p of the group: the first period of a group is the start
bit. -/
def runBits (p m : Nat) (lvl : Bool) : List Bool := List.replicate (if p = 0 then m - 1 else m) lvl

theorem runBits_succ {p m : Nat} (h1 : 1 ≤ m) (lvl : Bool) (bs : List Bool) :
    runBits p (m + 1) lvl ++ bs = runBits p m lvl ++ lvl :: bs := by
  have hlen : (if p = 0 then m + 1 - 1 else m + 1) = (if p = 0 then m - 1 else m) + 1 := by split <;> omega
  rw [runBits, hlen, List.replicate_succ', List.append_assoc]
  rfl

/-- One edge: the run it ends is appended, and the place in the group moves on. -/
theorem walkEnd_edge {cap te te' t m : Nat} {lvl : Bool} {times : List Nat} {a : BitAcc} (hte : Close te t)
    (hte' : Close te' (t + 10 * m)) (h1 : 1 ≤ m) (herr : a.err = .none) (hpos : a.pos + m ≤ 9) (hroom : a.bits.length ≠ cap)
    (hfits : a.bits.length + (runBits a.pos m lvl).length ≤ cap) :
    walkEnd cap lvl (BitVec.ofNat 16 te) ((te' :: times).map (BitVec.ofNat 16)) a =
      walkEnd cap (!lvl) (BitVec.ofNat 16 te') (times.map (BitVec.ofNat 16))
        { a with bits := a.bits ++ runBits a.pos m lvl, pos := if a.pos + m = 9 then 0 else a.pos + m } := by
  have hgap := gapBits_of_close hte hte' h1 (by omega)
  have hstep : gapStep cap lvl (BitVec.ofNat 16 te' - BitVec.ofNat 16 te) a =
      { a with bits := a.bits ++ runBits a.pos m lvl, pos := if a.pos + m = 9 then 0 else a.pos + m } := by
    by_cases hp : a.pos = 0
    · simp only [runBits, if_pos hp, List.length_replicate] at hfits ⊢
      rw [gapStep_of_boundary lvl hp hgap h1 (by omega) hfits, hp, Nat.zero_add]
    · simp only [runBits, if_neg hp, List.length_replicate] at hfits ⊢
      exact gapStep_of_within lvl hp hgap h1 hpos hfits
  have hgo : ¬ (a.bits.length = cap ∨ a.err = .missingStart) := by simp [hroom, herr]
  rw [List.map_cons, walkEnd, walkEnd, ← hstep, List.length_cons, levelAfter, walkEdges, if_neg hgo]

/-! ### One octet group -/

/-- What the walk has in hand at a level inside a group: m bit periods since the last edge, at the level lvl, and the data
bits bs to come, with room for all of them. -/
structure InGroup (cap m : Nat) (lvl : Bool) (bs : List Bool) (a : BitAcc) : Prop where
  one_le : 1 ≤ m
  err : a.err = .none
  nine : a.pos + m + bs.length = 9
  fits : a.bits.length + (runBits a.pos m lvl ++ bs).length ≤ cap

theorem InGroup.room {cap m : Nat} {lvl : Bool} {bs : List Bool} {a : BitAcc} (h : InGroup cap m lvl bs a) :
    a.bits.length ≠ cap := by
  obtain ⟨h1, -, h9, hfits⟩ := h
  rw [List.length_append, runBits, List.length_replicate] at hfits
  split at hfits <;> omega

/-- The level stays for one more period. -/
theorem InGroup.same {cap m : Nat} {lvl : Bool} {bs : List Bool} {a : BitAcc} (h : InGroup cap m lvl (lvl :: bs) a) :
    InGroup cap (m + 1) lvl bs a := by
  obtain ⟨h1, herr, h9, hfits⟩ := h
  rw [List.length_cons] at h9
  exact ⟨by omega, herr, by omega, runBits_succ h1 lvl bs ▸ hfits⟩

/-- The accumulator after an edge inside the group. -/
def afterEdge (m : Nat) (lvl : Bool) (a : BitAcc) : BitAcc :=
  { a with bits := a.bits ++ runBits a.pos m lvl, pos := a.pos + m }

theorem afterEdge_bits {m : Nat} (h1 : 1 ≤ m) (lvl l : Bool) (a : BitAcc) (bs : List Bool) :
    (afterEdge m lvl a).bits ++ (runBits (afterEdge m lvl a).pos 1 l ++ bs) = a.bits ++ (runBits a.pos m lvl ++ l :: bs) := by
  have hrun : runBits (a.pos + m) 1 l = [l] := by rw [runBits, if_neg (by omega), List.replicate_one]
  rw [afterEdge, hrun, List.append_assoc, List.singleton_append]

/-- The level changes: an edge inside the group. -/
theorem InGroup.change {cap m : Nat} {lvl : Bool} {bs : List Bool} {a : BitAcc} (h : InGroup cap m lvl ((!lvl) :: bs) a) :
    InGroup cap 1 (!lvl) bs (afterEdge m lvl a) := by
  obtain ⟨h1, herr, h9, hfits⟩ := h
  rw [List.length_cons] at h9
  refine ⟨le_rfl, herr, ?_, ?_⟩
  · simp only [afterEdge]
    omega
  · rwa [← List.length_append, afterEdge_bits h1, List.length_append]

theorem walkEnd_edge_inside {cap te te' t m : Nat} {lvl : Bool} {times : List Nat} {bs : List Bool} {a : BitAcc}
    (hte : Close te t) (hte' : Close te' (t + 10 * m)) (h : InGroup cap m lvl ((!lvl) :: bs) a) :
    walkEnd cap lvl (BitVec.ofNat 16 te) ((te' :: times).map (BitVec.ofNat 16)) a =
      walkEnd cap (!lvl) (BitVec.ofNat 16 te') (times.map (BitVec.ofNat 16)) (afterEdge m lvl a) := by
  have hroom := h.room
  obtain ⟨h1, herr, h9, hfits⟩ := h
  rw [List.length_cons] at h9
  rw [List.length_append] at hfits
  rw [walkEnd_edge hte hte' h1 herr (by omega) hroom (by omega), if_neg (by omega), afterEdge]

/-- A group that ends in an edge: the walk is at that edge, at the boundary of the next group, with the data bits appended. -/
theorem walkEnd_group {cap : Nat} {bs : List Bool} : ∀ {te t m : Nat} {lvl : Bool} {times : List Nat} {tail : List Bool}
    {a : BitAcc}, Close te t → InGroup cap m lvl bs a →
    List.Forall₂ Close times (changeTimes (t + 10 * m) lvl (bs ++ (!bs.getLastD lvl) :: tail)) →
    ∃ te' times', Close te' (t + 10 * (m + bs.length)) ∧
      List.Forall₂ Close times' (changeTimes (t + 10 * (m + bs.length) + 10) (!bs.getLastD lvl) tail) ∧
      walkEnd cap lvl (BitVec.ofNat 16 te) (times.map (BitVec.ofNat 16)) a =
        walkEnd cap (!bs.getLastD lvl) (BitVec.ofNat 16 te') (times'.map (BitVec.ofNat 16))
          { a with bits := a.bits ++ (runBits a.pos m lvl ++ bs), pos := 0 } := by
  induction bs with
  | nil =>
    intro te t m lvl times tail a hte h htimes
    have hroom := h.room
    obtain ⟨h1, herr, h9, hfits⟩ := h
    rw [List.length_nil, Nat.add_zero] at h9
    rw [List.append_nil] at hfits
    rw [List.nil_append, List.getLastD_nil, changeTimes_change, List.forall₂_cons_right_iff] at htimes
    obtain ⟨te', times', hte', htimes', rfl⟩ := htimes
    refine ⟨te', times', hte', htimes', ?_⟩
    rw [walkEnd_edge hte hte' h1 herr h9.le hroom hfits, if_pos h9, List.append_nil, List.getLastD_nil]
  | cons b bs ih =>
    intro te t m lvl times tail a hte h htimes
    rw [List.getLastD_cons, List.cons_append] at *
    by_cases hb : b = lvl
    · subst hb
      rw [changeTimes_same] at htimes
      obtain ⟨te', times', hte', htimes', hwalk⟩ := ih (m := m + 1) hte h.same htimes
      rw [show m + 1 + bs.length = m + (b :: bs).length by rw [List.length_cons]; omega] at hte' htimes'
      exact ⟨te', times', hte', htimes', runBits_succ h.one_le b bs ▸ hwalk⟩
    · obtain rfl : b = !lvl := Bool.eq_not_of_ne hb
      rw [changeTimes_change, List.forall₂_cons_right_iff] at htimes
      obtain ⟨te1, times1, hte1, htimes1, rfl⟩ := htimes
      obtain ⟨te', times', hte', htimes', hwalk⟩ := ih (m := 1) hte1 h.change htimes1
      rw [show t + 10 * m + 10 * (1 + bs.length) = t + 10 * (m + ((!lvl) :: bs).length) by
        rw [List.length_cons]; omega] at hte' htimes'
      refine ⟨te', times', hte', htimes', ?_⟩
      rw [walkEnd_edge_inside hte hte1 h, hwalk, afterEdge_bits h.one_le]
      rfl

/-- A group after which the line stays at its level: the walk ends inside it, and the level fills the rest of it. -/
theorem walkEnd_last {cap : Nat} {bs : List Bool} : ∀ {te t m : Nat} {lvl : Bool} {times : List Nat} {a : BitAcc},
    Close te t → InGroup cap m lvl bs a → List.Forall₂ Close times (changeTimes (t + 10 * m) lvl bs) →
    ∃ a' r, walkEnd cap lvl (BitVec.ofNat 16 te) (times.map (BitVec.ofNat 16)) a = (a', bs.getLastD lvl) ∧
      a'.err = .none ∧ a'.zeros = a.zeros ∧
      a'.bits ++ List.replicate r (bs.getLastD lvl) = a.bits ++ (runBits a.pos m lvl ++ bs) := by
  induction bs with
  | nil =>
    intro te t m lvl times a _ h htimes
    obtain rfl := List.forall₂_nil_right_iff.mp htimes
    exact ⟨a, _, rfl, h.err, rfl, by rw [List.append_nil]; rfl⟩
  | cons b bs ih =>
    intro te t m lvl times a hte h htimes
    rw [List.getLastD_cons] at *
    by_cases hb : b = lvl
    · subst hb
      rw [changeTimes_same] at htimes
      obtain ⟨a', r, hwalk, herr, hzeros, hbits⟩ := ih (m := m + 1) hte h.same htimes
      exact ⟨a', r, hwalk, herr, hzeros, runBits_succ h.one_le b bs ▸ hbits⟩
    · obtain rfl : b = !lvl := Bool.eq_not_of_ne hb
      rw [changeTimes_change, List.forall₂_cons_right_iff] at htimes
      obtain ⟨te1, times1, hte1, htimes1, rfl⟩ := htimes
      obtain ⟨a', r, hwalk, herr, hzeros, hbits⟩ := ih (m := 1) hte1 h.change htimes1
      refine ⟨a', r, ?_, herr, hzeros, ?_⟩
      · rw [walkEnd_edge_inside hte hte1 h, hwalk]
      · rw [hbits, afterEdge_bits h.one_le]

/-! ### A frame -/

/-- The data bits of an octet, bit 0 first. -/
def octetBits (o : Byte) : List Bool := (List.range 8).map o.getLsbD

@[simp] theorem octetBits_length (o : Byte) : (octetBits o).length = 8 := rfl

@[simp] theorem octetBits_getLastD (o : Byte) (l : Bool) : (octetBits o).getLastD l = o.getLsbD 7 := rfl

/-- The data bits of a frame. -/
def frameBits (octets : List Byte) : List Bool := octets.flatMap octetBits

theorem lineLevels_cons (prev : Bool) (o : Byte) (octets : List Byte) :
    lineLevels prev (o :: octets) = (!prev) :: (octetBits o ++ lineLevels (o.getLsbD 7) octets) := rfl

/-- At the start edge of an octet the walk has its start bit in hand. -/
theorem inGroup_of_boundary {cap : Nat} {a : BitAcc} (o : Byte) (lvl : Bool) (herr : a.err = .none) (hpos : a.pos = 0)
    (hfits : a.bits.length + 8 ≤ cap) : InGroup cap 1 lvl (octetBits o) a :=
  ⟨le_rfl, herr, by simp [hpos], by simpa [runBits, hpos] using hfits⟩

theorem runBits_start {p : Nat} (hpos : p = 0) (lvl : Bool) (bs : List Bool) : runBits p 1 lvl ++ bs = bs := by
  simp [runBits, hpos]

/-- Filling B to the capacity with the level at which the line stays completes the group it ended in. -/
theorem padBits_of_completed {cap r : Nat} {l : Bool} {bits full : List Bool} (h : bits ++ List.replicate r l = full)
    (hfits : full.length ≤ cap) : ∃ more, padBits cap l bits = full ++ more := by
  have hlen : bits.length + r = full.length := by rw [← h, List.length_append, List.length_replicate]
  have hfill : cap - bits.length = r + (cap - full.length) := by omega
  exact ⟨List.replicate (cap - full.length) l, by
    rw [padBits, hfill, ← List.replicate_append_replicate, ← List.append_assoc, h]⟩

/-- The walk over a frame of at least one octet, from its start edge: without failure, and with B filled to the capacity
beginning with the frame's data bits. After the frame the line may stay for any number r of periods at any level. -/
theorem walkEnd_frame {cap r : Nat} {idle : Bool} {octets : List Byte} : ∀ {o : Byte} {prev : Bool} {te t : Nat}
    {times : List Nat} {a : BitAcc}, Close te t → a.err = .none → a.pos = 0 →
    a.bits.length + 8 * (o :: octets).length ≤ cap →
    List.Forall₂ Close times
      (changeTimes (t + 10) (!prev) (octetBits o ++ lineLevels (o.getLsbD 7) octets ++ List.replicate r idle)) →
    ∃ a' l more, walkEnd cap (!prev) (BitVec.ofNat 16 te) (times.map (BitVec.ofNat 16)) a = (a', l) ∧
      a'.err = .none ∧ a'.zeros = a.zeros ∧ padBits cap l a'.bits = a.bits ++ frameBits (o :: octets) ++ more := by
  induction octets with
  | nil =>
    intro o prev te t times a hte herr hpos hfits htimes
    have hgroup := inGroup_of_boundary o (!prev) herr hpos hfits
    have hframe : frameBits [o] = octetBits o := List.flatMap_singleton ..
    rw [lineLevels, List.append_nil] at htimes
    rw [hframe]
    by_cases hstays : r = 0 ∨ idle = o.getLsbD 7
    · have htimes' : List.Forall₂ Close times (changeTimes (t + 10) (!prev) (octetBits o)) := by
        rcases hstays with rfl | rfl
        · rwa [List.replicate_zero, List.append_nil] at htimes
        · rwa [← octetBits_getLastD o (!prev), changeTimes_append_level] at htimes
      obtain ⟨a', r', hwalk, herr', hzeros, hbits⟩ := walkEnd_last hte hgroup htimes'
      rw [runBits_start hpos] at hbits
      obtain ⟨more, hmore⟩ := padBits_of_completed (cap := cap) hbits (by simpa using hfits)
      exact ⟨a', _, more, hwalk, herr', hzeros, hmore⟩
    · obtain ⟨hr, hidle⟩ := not_or.mp hstays
      obtain ⟨r', rfl⟩ := Nat.exists_eq_succ_of_ne_zero hr
      obtain rfl : idle = !(octetBits o).getLastD (!prev) := Bool.eq_not_of_ne hidle
      obtain ⟨te', times', -, htimes', hwalk⟩ := walkEnd_group hte hgroup htimes
      rw [changeTimes_replicate, List.forall₂_nil_right_iff] at htimes'
      subst htimes'
      rw [runBits_start hpos] at hwalk
      exact ⟨_, _, _, hwalk, herr, rfl, rfl⟩
  | cons o' octets ih =>
    intro o prev te t times a hte herr hpos hfits htimes
    rw [List.length_cons] at hfits
    have hgroup := inGroup_of_boundary (cap := cap) o (!prev) herr hpos (by omega)
    rw [lineLevels_cons, ← octetBits_getLastD o (!prev), List.append_assoc, List.cons_append] at htimes
    obtain ⟨te', times', hte', htimes', hwalk⟩ := walkEnd_group hte hgroup htimes
    rw [runBits_start hpos] at hwalk
    obtain ⟨a', l, more, hwalk', herr', hzeros, hmore⟩ :=
      ih (a := { a with bits := a.bits ++ octetBits o, pos := 0 }) hte' herr rfl
        (by simp only [List.length_append, octetBits_length, List.length_cons] at hfits ⊢; omega) htimes'
    refine ⟨a', l, more, hwalk.trans hwalk', herr', hzeros, ?_⟩
    rw [hmore]
    simp [frameBits]

/-- What process_bits answers over a frame whose start edge is near t0 (R191). -/
theorem processBits_frame {cap r t0 : Nat} {idle : Bool} {o : Byte} {octets : List Byte} {times : List Nat}
    (hfits : 8 * (o :: octets).length ≤ cap)
    (htimes : List.Forall₂ Close times
      (changeTimes t0 false (lineLevels false (o :: octets) ++ List.replicate r idle))) :
    (processBits (times.map (BitVec.ofNat 16)) cap).err = .none ∧
    (processBits (times.map (BitVec.ofNat 16)) cap).zeros = 0 ∧
    ∃ more, (processBits (times.map (BitVec.ofNat 16)) cap).bits = frameBits (o :: octets) ++ more := by
  rw [lineLevels_cons, List.cons_append, changeTimes_change, List.forall₂_cons_right_iff] at htimes
  obtain ⟨te, times', hte, htimes', rfl⟩ := htimes
  obtain ⟨a', l, more, hwalk, herr, hzeros, hmore⟩ := walkEnd_frame (cap := cap) (prev := false) (a := BitAcc.start) hte rfl rfl
    (by simpa [BitAcc.start] using hfits) htimes'
  rw [walkEnd, Prod.mk.injEq] at hwalk
  obtain ⟨hwalk, hlevel⟩ := hwalk
  have hl : decide ((times'.map (BitVec.ofNat 16)).length % 2 = 0) = l := by
    rw [← hlevel, Bool.not_false, levelAfter_eq]
    split
    · next h => exact decide_eq_true h
    · next h => exact decide_eq_false h
  rw [List.map_cons, processBits_of_padded hwalk (by simp [herr]), hl]
  exact ⟨herr, hzeros, more, hmore⟩

/-! ### The octets (R186) -/

theorem octetAt_zero (o : Byte) (bits : List Bool) : octetAt (octetBits o ++ bits) 0 = o := by
  apply BitVec.eq_of_getLsbD_eq
  intro i hi
  rw [octetAt_getLsbD _ _ _ hi, Nat.mul_zero, Nat.zero_add, List.getD_append _ _ _ _ hi]
  simp [octetBits, List.getD, hi]

theorem octetAt_succ (o : Byte) (bits : List Bool) (j : Nat) : octetAt (octetBits o ++ bits) (j + 1) = octetAt bits j := by
  have hdrop : (octetBits o ++ bits).drop (8 * (j + 1)) = bits.drop (8 * j) := by
    rw [Nat.mul_succ, Nat.add_comm, ← List.drop_drop, List.drop_left' (octetBits_length o)]
  rw [octetAt, hdrop, octetAt]

/-- Octet j of the frame's data bits is octet j of the frame. -/
theorem octetAt_frameBits {octets : List Byte} {j : Nat} {o : Byte} (h : octets[j]? = some o) (more : List Bool) :
    octetAt (frameBits octets ++ more) j = o := by
  induction octets generalizing j with
  | nil => simp at h
  | cons o' octets ih =>
    rw [frameBits, List.flatMap_cons, List.append_assoc]
    cases j with
    | zero =>
      obtain rfl : o' = o := by simpa using h
      exact octetAt_zero o' _
    | succ j =>
      rw [octetAt_succ]
      exact ih (by simpa using h)

/-! ### DecodeRx over a frame (R187, R191, R192) -/

/-- A channel whose edges are those of a frame of 1 to 16 octets has the octets in RXB after DecodeRx. -/
theorem decodeRx_frame {octets : List Byte} {t0 r : Nat} {idle : Bool} {times : List Nat} {k : Channel}
    (h1 : 1 ≤ octets.length) (h16 : octets.length ≤ 16)
    (htimes : List.Forall₂ Close times (changeTimes t0 false (lineLevels false octets ++ List.replicate r idle)))
    (hk : k.edgeList = times.map (BitVec.ofNat 16)) :
    (∀ (j : Nat) (o : Byte), octets[j]? = some o → k.decodeRx.rxb[j]? = some o) ∧
      k.decodeRx.decErr = .none ∧ k.decodeRx.zeroRun = false := by
  obtain ⟨o, octets, rfl⟩ := List.exists_cons_of_length_pos h1
  obtain ⟨herr, hzeros, more, hbits⟩ := processBits_frame (cap := 128) (by omega) htimes
  rw [← hk] at herr hzeros hbits
  refine ⟨fun j o' hj => ?_, herr, decide_eq_false hzeros.not_gt⟩
  have hlt : j < 16 := (List.getElem?_eq_some_iff.mp hj).1.trans_le h16
  rw [rxb_getElem? _ hlt, decodeRx_octet k hlt, hbits, octetAt_frameBits hj]

theorem frameEdges_eq (t0 : Nat) (octets : List Byte) (idle : Bool) :
    frameEdges t0 octets idle = changeTimes t0 false (lineLevels false octets ++ List.replicate 1 idle) := rfl

/-- Settles O28: displaced by at most 2 ticks, every gap still rounds to its run. -/
theorem displacedWaveformDecodes : Obligations.DisplacedWaveformDecodes := by
  unfold Obligations.DisplacedWaveformDecodes
  intro octets t0 idle times k h1 h16 htimes hk
  obtain ⟨hoctets, -⟩ := decodeRx_frame (r := 1) h1 h16 (frameEdges_eq t0 octets idle ▸ htimes) hk
  exact hoctets

/-- Settles O27: the reference edges are themselves, displaced by nothing. -/
theorem referenceWaveformDecodes : Obligations.ReferenceWaveformDecodes := by
  unfold Obligations.ReferenceWaveformDecodes
  intro octets t0 idle k h1 h16 hk
  exact decodeRx_frame (r := 1) h1 h16 (close_self _) hk

end Sys2Proof.Reference
end

section
/-! A frame whose length its header declares, on the line of a waiting channel (70_reset_and_hazards.md R236): the edges up
to an index, what the header pass reads of them, and the channel followed through its ChannelTicks to the end of its
window. -/

namespace Sys2Proof.Machine

open Sys2Proof Sys2Proof.Reference

/-! ### The levels and the edges up to an index -/

/-- The levels of the first m bit periods of a line that stays at idle after its levels. -/
def levelsBefore (line : List Bool) (idle : Bool) (m : Nat) : List Bool := (List.range m).map fun j => line.getD j idle

theorem levelsBefore_succ (line : List Bool) (idle : Bool) (m : Nat) :
    levelsBefore line idle (m + 1) = levelsBefore line idle m ++ [line.getD m idle] := by
  simp [levelsBefore, List.range_succ]

theorem levelsBefore_nil (idle : Bool) (m : Nat) : levelsBefore [] idle m = List.replicate m idle := by
  simp [levelsBefore]

theorem levelsBefore_append (line rest : List Bool) (idle : Bool) (m : Nat) :
    levelsBefore (line ++ rest) idle (line.length + m) = line ++ levelsBefore rest idle m := by
  induction line with
  | nil => simp
  | cons l line ih =>
    rw [List.length_cons, Nat.add_right_comm, levelsBefore, List.range_succ_eq_map, List.map_cons, List.map_map]
    exact congrArg (l :: ·) ih

theorem changeTimes_length_le (t : Nat) (l : Bool) (ls : List Bool) : (changeTimes t l ls).length ≤ ls.length := by
  induction ls generalizing t l with
  | nil => exact Nat.zero_le _
  | cons b ls ih =>
    rw [changeTimes]
    split
    · exact Nat.le_succ_of_le (ih _ _)
    · exact Nat.succ_le_succ (ih _ _)

theorem lineLevels_length (prev : Bool) (octets : List Byte) : (lineLevels prev octets).length = 9 * octets.length := by
  induction octets generalizing prev with
  | nil => rfl
  | cons o octets ih =>
    rw [lineLevels_cons, List.length_cons, List.length_append, octetBits_length, ih, List.length_cons]
    omega

/-- A frame on the line: its header and its other octets, the index of its start edge, and the level after it. -/
structure LineFrame where
  hdr : Byte
  body : List Byte
  start : Nat
  idle : Bool

namespace LineFrame

/-- The level at index n. -/
def level (F : LineFrame) (n : Nat) : Bool := frameLevelAt F.start (F.hdr :: F.body) F.idle n

/-- The bit periods begun before index n. -/
def periodsBefore (F : LineFrame) (n : Nat) : Nat := (n - F.start + 9) / 10

/-- The changes of level before index n. -/
def edgesBefore (F : LineFrame) (n : Nat) : List Nat :=
  changeTimes F.start false (levelsBefore (lineLevels false (F.hdr :: F.body)) F.idle (F.periodsBefore n))

/-- The END_IDX of the length the header declares. -/
def endIdx (F : LineFrame) : Nat := (declaredOctets F.hdr * 9 + 15) * 10

/-- The frame is as long as its header declares, and its start edge comes at most 159 TICKs into the window. -/
structure Prompt (F : LineFrame) : Prop where
  length : F.body.length + 1 = declaredOctets F.hdr
  start_le : F.start ≤ 159

theorem level_of_before {F : LineFrame} {n : Nat} (h : n < F.start) : F.level n = false := if_pos h

theorem level_period (F : LineFrame) {m r : Nat} (hr : r < 10) :
    F.level (F.start + (10 * m + r)) = (lineLevels false (F.hdr :: F.body)).getD m F.idle := by
  have hm : (F.start + (10 * m + r) - F.start) / 10 = m := by omega
  rw [level, frameLevelAt, if_neg (by omega), hm]

theorem level_start (F : LineFrame) : F.level F.start = true := F.level_period (m := 0) (r := 0) (by omega)

theorem edgesBefore_of_le {F : LineFrame} {n : Nat} (h : n ≤ F.start) : F.edgesBefore n = [] := by
  have hm : F.periodsBefore n = 0 := by unfold periodsBefore; omega
  rw [edgesBefore, hm]
  rfl

theorem edgesBefore_start_succ (F : LineFrame) : F.edgesBefore (F.start + 1) = [F.start] := by
  have hm : F.periodsBefore (F.start + 1) = 1 := by unfold periodsBefore; omega
  rw [edgesBefore, hm]
  rfl

/-- Past the start edge the edges grow by the index at which the level changes. -/
theorem edgesBefore_succ {F : LineFrame} {n : Nat} (h : F.start < n) :
    F.edgesBefore (n + 1) = F.edgesBefore n ++ if F.level n = F.level (n - 1) then [] else [n] := by
  obtain ⟨d, rfl⟩ := Nat.exists_eq_add_of_lt h
  obtain ⟨m, r, hr, rfl⟩ : ∃ m r, r < 10 ∧ d = 10 * m + r := ⟨d / 10, d % 10, by omega, by omega⟩
  have hlast : F.level (F.start + (10 * m + r) + 1 - 1) = (lineLevels false (F.hdr :: F.body)).getD m F.idle :=
    F.level_period hr
  have hseen : F.periodsBefore (F.start + (10 * m + r) + 1) = m + 1 := by unfold periodsBefore; omega
  rw [hlast, edgesBefore, edgesBefore, hseen]
  by_cases hboundary : r = 9
  case pos =>
    subst hboundary
    have hnext : F.periodsBefore (F.start + (10 * m + 9) + 1 + 1) = m + 1 + 1 := by unfold periodsBefore; omega
    have hlevel := F.level_period (m := m + 1) (r := 0) (by omega)
    have ht : F.start + (10 * m + 9) + 1 = F.start + (10 * (m + 1) + 0) := by omega
    have hlen : F.start + 10 * (levelsBefore (lineLevels false (F.hdr :: F.body)) F.idle (m + 1)).length =
        F.start + (10 * (m + 1) + 0) := by simp [levelsBefore]
    rw [hnext, levelsBefore_succ _ _ (m + 1), changeTimes_append, hlen, ht, hlevel, levelsBefore_succ, List.getLastD_concat]
    rfl
  case neg =>
    have hnext : F.periodsBefore (F.start + (10 * m + r) + 1 + 1) = m + 1 := by unfold periodsBefore; omega
    have hlevel := F.level_period (m := m) (r := r + 1) (by omega)
    rw [hnext, show F.start + (10 * m + r) + 1 = F.start + (10 * m + (r + 1)) from rfl, hlevel, if_pos rfl, List.append_nil]

/-- Inside the largest window E has room. -/
theorem edgesBefore_length_lt (F : LineFrame) {n : Nat} (h : n < 1590) : (F.edgesBefore n).length < 160 := by
  have hle := changeTimes_length_le F.start false
    (levelsBefore (lineLevels false (F.hdr :: F.body)) F.idle (F.periodsBefore n))
  have hperiods : F.periodsBefore n < 160 := by unfold periodsBefore; omega
  simp only [levelsBefore, List.length_map, List.length_range] at hle
  exact hle.trans_lt hperiods

theorem endIdx_le (F : LineFrame) : F.endIdx ≤ 1590 := by
  have hle := declaredOctets_le F.hdr
  unfold endIdx
  omega

/-- At the end of the window the edges are those of the whole frame. -/
theorem Prompt.edgesBefore_endIdx {F : LineFrame} (h : F.Prompt) :
    ∃ r, F.edgesBefore F.endIdx =
      changeTimes F.start false (lineLevels false (F.hdr :: F.body) ++ List.replicate r F.idle) := by
  obtain ⟨hlen, hstart⟩ := h
  obtain ⟨r, hr⟩ : ∃ r, F.periodsBefore F.endIdx = (lineLevels false (F.hdr :: F.body)).length + r := by
    apply Nat.exists_eq_add_of_le
    rw [lineLevels_length, List.length_cons, periodsBefore, endIdx]
    omega
  have hlevels := levelsBefore_append (lineLevels false (F.hdr :: F.body)) [] F.idle r
  rw [List.append_nil, levelsBefore_nil] at hlevels
  exact ⟨r, by rw [edgesBefore, hr, hlevels]⟩

/-- At the header check the levels seen are the header's, the next start bit, and one more. -/
theorem Prompt.edgesBefore_header {F : LineFrame} (h : F.Prompt) :
    ∃ tail, F.edgesBefore (F.start + 101) =
      changeTimes F.start false (true :: (octetBits F.hdr ++ (!F.hdr.getLsbD 7) :: tail)) := by
  obtain ⟨o, body, hbody⟩ : ∃ o body, F.body = o :: body := by
    apply List.exists_cons_of_length_pos
    have hlen := h.length
    unfold declaredOctets at hlen
    split at hlen <;> omega
  have hm : F.periodsBefore (F.start + 101) = 11 := by unfold periodsBefore; omega
  have hlevels := levelsBefore_append (true :: (octetBits F.hdr ++ [!F.hdr.getLsbD 7]))
    (octetBits o ++ lineLevels (o.getLsbD 7) body) F.idle 1
  refine ⟨levelsBefore (octetBits o ++ lineLevels (o.getLsbD 7) body) F.idle 1, ?_⟩
  rw [edgesBefore, hm, hbody, lineLevels_cons, lineLevels_cons]
  simpa using congrArg (changeTimes F.start false) hlevels

end LineFrame

/-! ### The header pass (42_edge_detector.md R157) -/

/-- The one-octet pass over edges that go on after the first octet: B is full with that octet, and the rest is not looked
at. -/
theorem processBits_header {t0 : Nat} {o : Byte} {tail : List Bool} {times : List Nat}
    (htimes : times = changeTimes t0 false (true :: (octetBits o ++ (!o.getLsbD 7) :: tail))) :
    (processBits (times.map (BitVec.ofNat 16)) 8).err = .none ∧
    octetAt (processBits (times.map (BitVec.ofNat 16)) 8).bits 0 = o := by
  rw [show true = !false from rfl, changeTimes_change] at htimes
  subst htimes
  have hgroup : InGroup 8 1 true (octetBits o) BitAcc.start := inGroup_of_boundary o true rfl rfl (by simp [BitAcc.start])
  obtain ⟨te', times', -, -, hwalk⟩ := walkEnd_group (tail := tail) (Close.refl t0) hgroup
    (close_self _)
  obtain ⟨hwalk, -⟩ := Prod.mk.inj hwalk
  have hfull := walkEdges_of_stop (cap := 8) (a := ⟨octetBits o, 0, .none, 0⟩) (.inl rfl) (!o.getLsbD 7)
    (BitVec.ofNat 16 te') (times'.map (BitVec.ofNat 16))
  have hheader : walkEdges 8 true (BitVec.ofNat 16 t0)
      ((changeTimes (t0 + 10) (!false) (octetBits o ++ (!o.getLsbD 7) :: tail)).map (BitVec.ofNat 16)) BitAcc.start =
      ⟨octetBits o, 0, .none, 0⟩ := hwalk.trans hfull
  rw [List.map_cons, processBits_of_padded hheader (by simp)]
  exact ⟨rfl, octetAt_zero o _⟩

/-! ### The channel while the frame is on the line -/

namespace LineFrame

/-- A waiting channel at index n, before the start edge. -/
def Waiting (F : LineFrame) (n : Nat) (k : Channel) : Prop :=
  n ≤ F.start ∧ k.phase = .wait ∧ k.sampleIdx.toNat = n ∧ k.edgeCnt = 0 ∧ k.endIdx.toNat = 1590 ∧ k.hdrRead = false

/-- E holds the changes of level before index n. -/
def EdgesSeen (F : LineFrame) (n : Nat) (k : Channel) : Prop :=
  k.edgeList = (F.edgesBefore n).map (BitVec.ofNat 16) ∧ k.edgeCnt.toNat = (F.edgesBefore n).length

/-- A started channel that has seen the levels up to index n. -/
def Seen (F : LineFrame) (n : Nat) (k : Channel) : Prop :=
  F.start < n ∧ k.phase = .started ∧ k.startIdx.toNat = F.start ∧ k.prev = F.level (n - 1) ∧
  F.EdgesSeen n k

/-- HDR_READ, HDR_OK, HDR and END_IDX once the header check at START_IDX + 100 has run, and before. -/
def HeaderSeen (F : LineFrame) (n : Nat) (k : Channel) : Prop :=
  if F.start + 100 < n then k.hdrRead = true ∧ k.hdrOk = true ∧ k.hdr = F.hdr ∧ k.endIdx.toNat = F.endIdx
  else k.hdrRead = false ∧ k.endIdx.toNat = 1590

/-- The channel at index n. -/
def Captured (F : LineFrame) (n : Nat) (k : Channel) : Prop :=
  F.Waiting n k ∨ (F.Seen n k ∧ F.HeaderSeen n k ∧ k.sampleIdx.toNat = n)

theorem Waiting.le {F : LineFrame} {n : Nat} {k : Channel} (h : F.Waiting n k) : n ≤ F.start := by
  obtain ⟨hle, -⟩ := h
  exact hle

theorem Waiting.phase {F : LineFrame} {n : Nat} {k : Channel} (h : F.Waiting n k) : k.phase = .wait := by
  obtain ⟨-, hwait, -⟩ := h
  exact hwait

theorem Seen.phase {F : LineFrame} {n : Nat} {k : Channel} (h : F.Seen n k) : k.phase = .started := by
  obtain ⟨-, hstarted, -⟩ := h
  exact hstarted

theorem Seen.startIdx {F : LineFrame} {n : Nat} {k : Channel} (h : F.Seen n k) : k.startIdx.toNat = F.start := by
  obtain ⟨-, -, hstart, -⟩ := h
  exact hstart

theorem Captured.phase_ne_done {F : LineFrame} {n : Nat} {k : Channel} (h : F.Captured n k) : k.phase ≠ .done := by
  obtain hwait | ⟨hseen, -⟩ := h
  · simp [hwait.phase]
  · simp [hseen.phase]

/-! ### The parts of its tick -/

/-- The sample of a STARTED tick writes PREV, IDLE_CNT and what RecordEdge writes. -/
theorem startedSample_frame (x : Half) (k : Channel) :
    k.startedSample x =
      { k with
        prev := (k.startedSample x).prev, idleCnt := (k.startedSample x).idleCnt, edges := (k.startedSample x).edges
        edgeCnt := (k.startedSample x).edgeCnt, edgeOvf := (k.startedSample x).edgeOvf } := by
  by_cases h : k.prev = k.hi x
  · rw [startedSample_of_level h]
  · rw [startedSample_of_crossing h, recordEdge_frame]

/-- A change of level at the present index n, recorded in a started channel that has the level there as PREV. -/
theorem EdgesSeen.recordEdge {F : LineFrame} {n : Nat} {k : Channel} (h : F.EdgesSeen n k)
    (hnext : F.edgesBefore (n + 1) = F.edgesBefore n ++ [n]) (hidx : k.sampleIdx.toNat = n) (hn : n < 1590)
    (hle : F.start ≤ n) (hstarted : k.phase = .started) (hstart : k.startIdx.toNat = F.start) (hprev : k.prev = F.level n) :
    F.Seen (n + 1) (k.recordEdge k.sampleIdx) := by
  obtain ⟨hedges, hcnt⟩ := h
  have hroom : k.edgeCnt.toNat < 160 := hcnt ▸ F.edgesBefore_length_lt hn
  have hn16 : k.sampleIdx = BitVec.ofNat 16 n := by rw [← hidx, BitVec.ofNat_toNat, BitVec.setWidth_eq]
  have hedges' : (k.recordEdge k.sampleIdx).edgeList = (F.edgesBefore (n + 1)).map (BitVec.ofNat 16) := by
    rw [recordEdge_edgeList k _ hroom, hnext, List.map_append, hedges, hn16]
    rfl
  have hcnt' : (k.recordEdge k.sampleIdx).edgeCnt.toNat = (F.edgesBefore (n + 1)).length := by
    rw [recordEdge_edgeCnt k _ hroom, hnext, List.length_append, hcnt]
    rfl
  refine ⟨Nat.lt_succ_of_le hle, (Channel.recordEdge_phase _ k).trans hstarted, ?_, ?_, hedges', hcnt'⟩ <;>
    rw [recordEdge_frame]
  · exact hstart
  · exact hprev

/-- The sample at index n of a started channel. -/
theorem Seen.startedSample {F : LineFrame} {n : Nat} {k : Channel} {x : Half} (h : F.Seen n k)
    (hidx : k.sampleIdx.toNat = n) (hn : n < 1590) (hx : k.hi x = F.level n) : F.Seen (n + 1) (k.startedSample x) := by
  obtain ⟨hlt, hstarted, hstart, hprev, hedges⟩ := h
  have hnext := edgesBefore_succ hlt
  by_cases hlevel : F.level n = F.level (n - 1)
  case pos =>
    rw [if_pos hlevel, List.append_nil] at hnext
    rw [startedSample_of_level (by rw [hx, hlevel, hprev]), Seen, EdgesSeen, hnext]
    exact ⟨Nat.lt_succ_of_lt hlt, hstarted, hstart, hprev.trans hlevel.symm, hedges⟩
  case neg =>
    rw [if_neg hlevel] at hnext
    rw [startedSample_of_crossing (by rw [hx, hprev]; exact Ne.symm hlevel)]
    exact EdgesSeen.recordEdge (k := { k with prev := k.hi x, idleCnt := 0 }) hedges hnext hidx hn hlt.le hstarted hstart hx

/-- The sample at the start edge of a waiting channel. -/
theorem Waiting.waitSample {F : LineFrame} {k : Channel} {x : Half} (h : F.Waiting F.start k) (hstart : F.start ≤ 159)
    (hx : k.hi x = F.level F.start) :
    F.Seen (F.start + 1) (k.waitSample x) ∧ F.HeaderSeen (F.start + 1) (k.waitSample x) := by
  obtain ⟨-, -, hidx, hcnt, hend, hread⟩ := h
  have hnone := edgesBefore_of_le (F := F) le_rfl
  have hedges : F.EdgesSeen F.start k := by
    rw [EdgesSeen, hnone, edgeList_of_none k hcnt, hcnt]
    exact ⟨rfl, rfl⟩
  have hnext : F.edgesBefore (F.start + 1) = F.edgesBefore F.start ++ [F.start] := by
    rw [hnone, edgesBefore_start_succ, List.nil_append]
  rw [waitSample_of_high (hx.trans F.level_start)]
  constructor
  · exact EdgesSeen.recordEdge (k := { k with startIdx := k.sampleIdx, prev := true, phase := .started, idleCnt := 0 })
      hedges hnext hidx (by omega) le_rfl rfl hidx F.level_start.symm
  · rw [recordEdge_frame, HeaderSeen, if_neg (by omega)]
    exact ⟨hread, hend⟩

/-- The header check leaves what the channel has seen. -/
theorem Seen.headerCheck {F : LineFrame} {n : Nat} {k : Channel} (h : F.Seen n k) : F.Seen n k.headerCheck := by
  obtain ⟨-, -, hk⟩ | ⟨-, hk⟩ := headerCheck_cases k <;> rw [hk]
  · rw [headerDecode_frame]
    exact h
  · exact h

/-- HeaderDecode over the edges up to START_IDX + 100. -/
theorem headerSeen_headerDecode {F : LineFrame} {k : Channel} (hF : F.Prompt) (h : F.Seen (F.start + 101) k) :
    F.HeaderSeen (F.start + 101) k.headerDecode := by
  obtain ⟨-, -, -, -, hedges, -⟩ := h
  obtain ⟨tail, htail⟩ := hF.edgesBefore_header
  obtain ⟨herr, hoctet⟩ := processBits_header htail
  rw [← hedges] at herr hoctet
  have hdecl : decl (F.hdr.extractLsb' 0 4) = declaredOctets F.hdr := decl_len { k with hdr := F.hdr }
  have hend : (BitVec.ofNat 16 (endIdxFor (decl (F.hdr.extractLsb' 0 4)))).toNat = F.endIdx := by
    rw [toNat_endIdx, hdecl]
    rfl
  rw [HeaderSeen, if_pos (by omega), headerDecode_of_ok herr, hoctet]
  exact ⟨rfl, rfl, rfl, hend⟩

/-- The header check at index n, on a channel that has seen the level there. -/
theorem HeaderSeen.headerCheck {F : LineFrame} {n : Nat} {k : Channel} (hF : F.Prompt) (h : F.HeaderSeen n k)
    (hseen : F.Seen (n + 1) k) (hidx : k.sampleIdx.toNat = n) : F.HeaderSeen (n + 1) k.headerCheck := by
  have hstart := hseen.startIdx
  obtain ⟨hread, hat, hk⟩ | ⟨hnot, hk⟩ := headerCheck_cases k <;> rw [hk]
  case inl =>
    obtain rfl : n = F.start + 100 := by omega
    exact headerSeen_headerDecode hF hseen
  case inr =>
    have hne : n ≠ F.start + 100 := by
      rintro rfl
      rw [HeaderSeen, if_neg (by omega)] at h
      obtain ⟨hread, -⟩ := h
      exact hnot ⟨hread, by omega⟩
    unfold HeaderSeen at h ⊢
    split at h
    · rwa [if_pos (by omega)]
    · rwa [if_neg (by omega)]

/-- The window reaches past the header check. -/
theorem Prompt.header_lt_endIdx {F : LineFrame} (hF : F.Prompt) : F.start + 101 < F.endIdx := by
  have hle := hF.start_le
  unfold endIdx declaredOctets
  split <;> omega

/-- END_IDX lies past the index until the channel has seen the whole window. -/
theorem HeaderSeen.lt_endIdx {F : LineFrame} {n : Nat} {k : Channel} (h : F.HeaderSeen n k) (hn : n < F.endIdx) :
    n < k.endIdx.toNat := by
  have hle := F.endIdx_le
  unfold HeaderSeen at h
  split at h
  · obtain ⟨-, -, -, hend⟩ := h
    exact hend ▸ hn
  · obtain ⟨-, hend⟩ := h
    omega

/-! ### Its tick -/

/-- A waiting channel before the start edge only counts. -/
theorem Waiting.tick_of_before {F : LineFrame} {n : Nat} {k : Channel} {x : Half} (h : F.Waiting n k) (hn : n < F.start)
    (hstart : F.start ≤ 159) (hx : k.hi x = F.level n) : F.Waiting (n + 1) (k.tick true x) := by
  obtain ⟨-, hwait, hidx, hcnt, hend, hread⟩ := h
  have hsucc := sampleIdx_succ (i := k.sampleIdx) (by omega)
  obtain ⟨htick, -⟩ := tick_of_wait_low true hwait (of_decide_eq_false (hx.trans (level_of_before hn)))
  rw [htick (by rw [BitVec.lt_def]; omega)]
  exact ⟨hn, hwait, hsucc.trans (congrArg (· + 1) hidx), hcnt, hend, hread⟩

/-- The index advances inside the window. -/
theorem Seen.advance {F : LineFrame} {n : Nat} {k : Channel} (h : F.Seen (n + 1) k) (hheader : F.HeaderSeen (n + 1) k)
    (hidx : k.sampleIdx.toNat = n) (hn : n + 1 < F.endIdx) : F.Captured (n + 1) k.advance := by
  have hle := F.endIdx_le
  have hlt := hheader.lt_endIdx hn
  have hsucc := sampleIdx_succ (i := k.sampleIdx) (by omega)
  rw [advance_of_before (by rw [BitVec.lt_def]; omega)]
  exact .inr ⟨h, hheader, hsucc.trans (congrArg (· + 1) hidx)⟩

/-- The tick at the start edge. -/
theorem Waiting.tick_of_start {F : LineFrame} {k : Channel} {x : Half} (hF : F.Prompt) (h : F.Waiting F.start k)
    (hx : k.hi x = F.level F.start) : F.Captured (F.start + 1) (k.tick true x) := by
  obtain ⟨hseen, hheader⟩ := h.waitSample hF.start_le hx
  have hend := hF.header_lt_endIdx
  obtain ⟨-, hwait, hidx, -⟩ := h
  rw [tick_of_wait true x k hwait]
  exact hseen.advance hheader ((congrArg _ (Channel.waitSample_sampleIdx x k)).trans hidx) (by omega)

/-- The channel at the end of a STARTED tick, before the index advances. -/
theorem Seen.sampled {F : LineFrame} {n : Nat} {k : Channel} {x : Half} (hF : F.Prompt) (h : F.Seen n k)
    (hheader : F.HeaderSeen n k) (hidx : k.sampleIdx.toNat = n) (hn : n < 1590) (hx : k.hi x = F.level n) :
    F.Seen (n + 1) (k.startedSample x).headerCheck ∧ F.HeaderSeen (n + 1) (k.startedSample x).headerCheck ∧
    (k.startedSample x).headerCheck.sampleIdx.toNat = n := by
  have hseen := h.startedSample hidx hn hx
  have hidx' : (k.startedSample x).sampleIdx.toNat = n := by rw [Channel.startedSample_sampleIdx, hidx]
  have hheader' : F.HeaderSeen n (k.startedSample x) := by rw [startedSample_frame]; exact hheader
  exact ⟨hseen.headerCheck, hheader'.headerCheck hF hseen hidx', by rw [Channel.headerCheck_sampleIdx, hidx']⟩

/-- A tick before the last one of the window. -/
theorem Captured.tick {F : LineFrame} {n : Nat} {k : Channel} {x : Half} (hF : F.Prompt) (h : F.Captured n k)
    (hn : n + 1 < F.endIdx) (hx : k.hi x = F.level n) : F.Captured (n + 1) (k.tick true x) := by
  have hle := F.endIdx_le
  rcases h with hwait | ⟨hseen, hheader, hidx⟩
  case inl =>
    rcases hwait.le.lt_or_eq with hlt | rfl
    · exact .inl (hwait.tick_of_before hlt hF.start_le hx)
    · exact hwait.tick_of_start hF hx
  case inr =>
    obtain ⟨hseen', hheader', hidx'⟩ := hseen.sampled hF hheader hidx (by omega) hx
    rw [tick_of_started true x k hseen.phase]
    exact hseen'.advance hheader' hidx' hn

/-- What a channel holds of the frame after its window. -/
def Held (F : LineFrame) (k : Channel) : Prop :=
  k.phase = .done ∧ k.hdr = F.hdr ∧ k.hdrOk = true ∧ k.octCnt.toNat = declaredOctets F.hdr ∧ k.valid = true ∧
  k.decErr = .none ∧ ∀ (j : Nat) (o : Byte), (F.hdr :: F.body)[j]? = some o → k.rxb[j]? = some o

/-- Finalize after the whole window. -/
theorem Seen.finalize {F : LineFrame} {k : Channel} (hF : F.Prompt) (h : F.Seen F.endIdx k)
    (hheader : F.HeaderSeen F.endIdx k) : F.Held k.finalize := by
  obtain ⟨-, -, -, -, hedges, hcnt⟩ := h
  have hread := hF.header_lt_endIdx
  rw [HeaderSeen, if_pos (by omega)] at hheader
  obtain ⟨-, hok, hhdr, -⟩ := hheader
  obtain ⟨r, hframe⟩ := hF.edgesBefore_endIdx
  have hlen := hF.length
  have h16 := declaredOctets_le F.hdr
  have hclose : List.Forall₂ Close (F.edgesBefore F.endIdx)
      (changeTimes F.start false (lineLevels false (F.hdr :: F.body) ++ List.replicate r F.idle)) :=
    (congrArg _ hframe).mp (close_self _)
  obtain ⟨hoctets, hdecErr, -⟩ := decodeRx_frame (k := k) (octets := F.hdr :: F.body) (times := F.edgesBefore F.endIdx)
    (by simp) (by rw [List.length_cons]; omega) hclose hedges
  have hcount : k.declared.toNat = declaredOctets F.hdr := by rw [declared_toNat, if_pos hok, hhdr]
  have hvalid : 0 < k.edgeCnt.toNat := by
    rw [hcnt, hframe, lineLevels_cons, List.cons_append, changeTimes_change]
    exact Nat.succ_pos _
  exact ⟨rfl, hhdr, hok, hcount, decide_eq_true hvalid, hdecErr, hoctets⟩

/-- The last tick of the window. -/
theorem Captured.tick_last {F : LineFrame} {n : Nat} {k : Channel} {x : Half} (hF : F.Prompt) (h : F.Captured n k)
    (hn : n + 1 = F.endIdx) (hx : k.hi x = F.level n) : F.Held (k.tick true x) := by
  have hle := F.endIdx_le
  have hread := hF.header_lt_endIdx
  rcases h with ⟨hbefore, -⟩ | ⟨hseen, hheader, hidx⟩
  case inl => omega
  case inr =>
    obtain ⟨hseen', hheader', hidx'⟩ := hseen.sampled hF hheader hidx (by omega) hx
    have hsucc := sampleIdx_succ (i := (k.startedSample x).headerCheck.sampleIdx) (by omega)
    rw [hn] at hseen' hheader'
    have hend : (k.startedSample x).headerCheck.endIdx.toNat = F.endIdx := by
      rw [HeaderSeen, if_pos (by omega)] at hheader'
      obtain ⟨-, -, -, hend⟩ := hheader'
      exact hend
    rw [tick_of_started true x k hseen.phase, advance_of_end (by rw [BitVec.le_def]; omega)]
    exact Seen.finalize hF hseen' hheader'

/-! ### The window -/

/-- The samples of a row show the frame's levels to the channel. -/
def Shown (F : LineFrame) (c : Chan) (thresh : Half) (xs : List (Half × Half)) : Prop :=
  ∀ n x, xs[n]? = some x → (thresh < sampleOf x.1 x.2 c ↔ F.level n = true)

/-- The channel has its ChannelTicks of the first n samples, and the next sample has the frame's level. -/
theorem hi_channelTicks {F : LineFrame} {c : Chan} {k : Channel} {xs : List (Half × Half)} (hxs : F.Shown c k.thresh xs)
    {n : Nat} {x : Half × Half} (hx : xs[n]? = some x) :
    (channelTicks c (xs.take n) k).hi (sampleOf x.1 x.2 c) = F.level n := by
  rw [hi_eq_decide, channelTicks_thresh, Bool.eq_iff_iff, decide_eq_true_iff]
  exact hxs n x hx

theorem captured_channelTicks {F : LineFrame} {c : Chan} {k : Channel} {xs : List (Half × Half)} (hF : F.Prompt)
    (h : F.Waiting 0 k) (hlen : xs.length = F.endIdx) (hxs : F.Shown c k.thresh xs) {n : Nat} (hn : n < F.endIdx) :
    F.Captured n (channelTicks c (xs.take n) k) := by
  induction n with
  | zero => exact .inl h
  | succ n ih =>
    have hx := List.getElem?_eq_getElem (l := xs) (i := n) (by omega)
    rw [channelTicks_take_succ c hx]
    exact (ih (by omega)).tick hF hn (hi_channelTicks hxs hx)

/-- The whole window of a channel that waits for the frame. -/
theorem held_channelTicks {F : LineFrame} {c : Chan} {k : Channel} {xs : List (Half × Half)} (hF : F.Prompt)
    (h : F.Waiting 0 k) (hlen : xs.length = F.endIdx) (hxs : F.Shown c k.thresh xs) : F.Held (channelTicks c xs k) := by
  obtain ⟨n, hn⟩ : ∃ n, n + 1 = F.endIdx := ⟨F.endIdx - 1, Nat.sub_add_cancel hF.header_lt_endIdx.pos⟩
  have hx := List.getElem?_eq_getElem (l := xs) (i := n) (by omega)
  have htake : xs.take (n + 1) = xs := List.take_of_length_le (by omega)
  rw [← htake, channelTicks_take_succ c hx]
  exact (captured_channelTicks hF h hlen hxs (by omega)).tick_last hF hn (hi_channelTicks hxs hx)

end LineFrame

/-- Settles O40: the channel has its own ChannelTicks, and is not DONE before the last of them. -/
theorem promptFrameIsCaptured : Obligations.PromptFrameIsCaptured := by
  unfold Obligations.PromptFrameIsCaptured
  intro s c hdr body idle t0 xs hin htimeout hwait hidx hcnt hend hread _ hbody ht0 hlen hxs k
  let F : LineFrame := ⟨hdr, body, t0, idle⟩
  have hF : F.Prompt := ⟨hbody, ht0⟩
  have hwaiting : F.Waiting 0 (s.ch c) := ⟨Nat.zero_le _, hwait, by simp [hidx], hcnt, by simp [hend], hread⟩
  have hk : k = channelTicks c xs (s.ch c) := runTicks_ch hin htimeout fun n hn =>
    (LineFrame.captured_channelTicks hF hwaiting hlen hxs (hn.trans_eq hlen)).phase_ne_done
  rw [hk]
  exact LineFrame.held_channelTicks hF hwaiting hlen hxs

end Sys2Proof.Machine
end
